-- ==== Sys2Proof/Word.lean ====
section
/-! DEFINITION. The word types of the machine: bytes, instruction words, register numbers, and the
containers of an XLEN-bit and of a VLEN-bit value, whose widths are parameters held in the state
(R4). -/

namespace Sys2Proof

/-- One byte of program text (R41). -/
abbrev Byte := BitVec 8

/-- A 32-bit instruction word, bit 0 least significant (R50). -/
abbrev InsnWord := BitVec 32

/-- A five-bit register number, naming `x0` to `x31` or `v0` to `v31` (R54). -/
abbrev RegNum := BitVec 5

/-- An XLEN-bit value, XLEN being 32 or 64 (R4): at XLEN = 32 the upper half is zero, as the
invariant of `Sys2Proof/Safety.lean` says (log entry 3). -/
abbrev XWord := BitVec 64

/-- The VLEN bits of one vector register, bit 0 first: entry `i` is mask element `i` (R15). Its
length is VLEN, as the invariant of `Sys2Proof/Safety.lean` says (log entry 2). -/
abbrev VReg := List Bool

end Sys2Proof
end

