-- ==== Sys2Proof/Syntax.lean ====
section
/-! DEFINITION. The fifteen machine instructions (R1), one constructor per row of
spec/opcode_table.json, and the five assembler pseudoinstructions (R67). -/

namespace Sys2Proof

/-- An instruction with its operand fields. `vm` is the mask field: `true` is `vm=1`, unmasked;
`false` is `vm=0`, masked by `v0` (R53). The logical instructions keep `vm`, and `vid` its `vs2`
field, although their legal encodings fix them, so that a reserved word decodes to its instruction
with nothing dropped (R60, R68). -/
inductive Instr where
  /-- `vmandnot.mm vd, vs2, vs1` (R72) -/
  | vmandnot (vd vs2 vs1 : RegNum) (vm : Bool)
  /-- `vmand.mm vd, vs2, vs1` (R70) -/
  | vmand (vd vs2 vs1 : RegNum) (vm : Bool)
  /-- `vmor.mm vd, vs2, vs1` (R74) -/
  | vmor (vd vs2 vs1 : RegNum) (vm : Bool)
  /-- `vmxor.mm vd, vs2, vs1` (R73) -/
  | vmxor (vd vs2 vs1 : RegNum) (vm : Bool)
  /-- `vmornot.mm vd, vs2, vs1` (R76) -/
  | vmornot (vd vs2 vs1 : RegNum) (vm : Bool)
  /-- `vmnand.mm vd, vs2, vs1` (R71) -/
  | vmnand (vd vs2 vs1 : RegNum) (vm : Bool)
  /-- `vmnor.mm vd, vs2, vs1` (R75) -/
  | vmnor (vd vs2 vs1 : RegNum) (vm : Bool)
  /-- `vmxnor.mm vd, vs2, vs1` (R77) -/
  | vmxnor (vd vs2 vs1 : RegNum) (vm : Bool)
  /-- `vpopc.m rd, vs2, vm` (R90) -/
  | vpopc (rd vs2 : RegNum) (vm : Bool)
  /-- `vfirst.m rd, vs2, vm` (R95) -/
  | vfirst (rd vs2 : RegNum) (vm : Bool)
  /-- `vmsbf.m vd, vs2, vm` (R100) -/
  | vmsbf (vd vs2 : RegNum) (vm : Bool)
  /-- `vmsof.m vd, vs2, vm` (R102) -/
  | vmsof (vd vs2 : RegNum) (vm : Bool)
  /-- `vmsif.m vd, vs2, vm` (R101) -/
  | vmsif (vd vs2 : RegNum) (vm : Bool)
  /-- `viota.m vd, vs2, vm` (R110) -/
  | viota (vd vs2 : RegNum) (vm : Bool)
  /-- `vid.v vd, vm` (R115), its `vs2` field kept -/
  | vid (vd vs2 : RegNum) (vm : Bool)
  deriving DecidableEq, Repr

/-- The assembler pseudoinstructions, which have no encoding of their own (R67, R78 to R82). -/
inductive Pseudo where
  /-- `vmmv.m vd, vs` (R78) -/
  | vmmv (vd vs : RegNum)
  /-- `vmclr.m vd` (R79) -/
  | vmclr (vd : RegNum)
  /-- `vmset.m vd` (R80) -/
  | vmset (vd : RegNum)
  /-- `vmnot.m vd, vs` (R81) -/
  | vmnot (vd vs : RegNum)
  /-- `vmcpy.m vd, vs`, the former name of `vmmv.m` (R82) -/
  | vmcpy (vd vs : RegNum)
  deriving DecidableEq, Repr

/-- Why an encoding is reserved (R61 to R63). -/
inductive ReservedReason where
  /-- A mask-register logical instruction with `vm=0` (R61 a). -/
  | logicalMasked
  /-- `vid.v` with a non-zero `vs2` field (R61 b). -/
  | vidSourceField
  /-- `vd` and `vs2` are the same register (R62). -/
  | destOverlapsSource
  /-- Masked, and the destination is or contains `v0` (R62). -/
  | maskedDestOverlapsV0
  /-- The destination group is not aligned to LMUL (R63). -/
  | groupMisaligned
  /-- The destination group of `viota.m` contains `vs2` (R62). -/
  | groupOverlapsSource
  deriving DecidableEq, Repr

/-- Why a word is none of the fifteen instructions, in the order of R64. -/
inductive NotInSpec where
  /-- `opcode` is not 1010111. -/
  | opcode
  /-- `funct3` is not 010. -/
  | funct3
  /-- `funct6` is none of the ten values of R55 to R57. -/
  | funct6
  /-- `funct6` is 010000 and the `vs1` field neither 10000 nor 10001. -/
  | scalarSubOpcode
  /-- `funct6` is 010100 and the `vs1` field none of the five of R57. -/
  | unarySubOpcode
  /-- Fewer than the four bytes of an instruction are there (R50). -/
  | truncated
  deriving DecidableEq, Repr

end Sys2Proof
end

