-- ==== Sys2Proof/Decode.lean ====
section
/-! DEFINITION. Decoding (R51 to R57, R64, R68) from a word and from bytes, the static reserved
checks (R61, R62, R126), the encoder (R52), and the expansion of the pseudoinstructions (R78 to
R82). Every bit position and code value is the spec's own, from general knowledge (D29; log
entry 14). -/

namespace Sys2Proof

/-- What the total decoder answers (R68). -/
inductive Decoded where
  | instr (i : Instr)
  | notInSpec (why : NotInSpec)
  deriving DecidableEq, Repr

/-! ### Fields of a word (R51, R52) -/

/-- `funct6 = insn[31:26]` -/
def fieldFunct6 (w : InsnWord) : BitVec 6 := w.extractLsb' 26 6

/-- `vm = insn[25:25]`: 1 is unmasked (R53) -/
def fieldVm (w : InsnWord) : Bool := w.getLsbD 25

/-- `vs2 = insn[24:20]` -/
def fieldVs2 (w : InsnWord) : RegNum := w.extractLsb' 20 5

/-- `vs1 = insn[19:15]` -/
def fieldVs1 (w : InsnWord) : RegNum := w.extractLsb' 15 5

/-- `funct3 = insn[14:12]` -/
def fieldFunct3 (w : InsnWord) : BitVec 3 := w.extractLsb' 12 3

/-- `vd = rd = insn[11:7]` -/
def fieldVd (w : InsnWord) : RegNum := w.extractLsb' 7 5

/-- `opcode = insn[6:0]` -/
def fieldOpcode (w : InsnWord) : BitVec 7 := w.extractLsb' 0 7

/-! ### The decoder -/

/-- The logical instruction of a `funct6` value (R55). -/
def decodeLogical (funct6 : BitVec 6) : Option (RegNum → RegNum → RegNum → Bool → Instr) :=
  if funct6 = 0b011000 then some .vmandnot
  else if funct6 = 0b011001 then some .vmand
  else if funct6 = 0b011010 then some .vmor
  else if funct6 = 0b011011 then some .vmxor
  else if funct6 = 0b011100 then some .vmornot
  else if funct6 = 0b011101 then some .vmnand
  else if funct6 = 0b011110 then some .vmnor
  else if funct6 = 0b011111 then some .vmxnor
  else none

/-- The scalar-result instruction of a `vs1` sub-opcode under `funct6 = 010000` (R56). -/
def decodeScalar (vs1 : RegNum) : Option (RegNum → RegNum → Bool → Instr) :=
  if vs1 = 0b10000 then some .vpopc
  else if vs1 = 0b10001 then some .vfirst
  else none

/-- The vector-result instruction of a `vs1` sub-opcode under `funct6 = 010100` (R57). -/
def decodeUnary (vs1 : RegNum) : Option (RegNum → RegNum → Bool → Instr) :=
  if vs1 = 0b00001 then some .vmsbf
  else if vs1 = 0b00010 then some .vmsof
  else if vs1 = 0b00011 then some .vmsif
  else if vs1 = 0b10000 then some .viota
  else if vs1 = 0b10001 then some .vid
  else none

/-- The total decoder for 32-bit words (R68). A reserved word decodes to its instruction; its verdict
is `staticReserved` of that instruction (R60). -/
def decode (w : InsnWord) : Decoded :=
  if fieldOpcode w ≠ 0b1010111 then .notInSpec .opcode
  else if fieldFunct3 w ≠ 0b010 then .notInSpec .funct3
  else if fieldFunct6 w = 0b010000 then
    match decodeScalar (fieldVs1 w) with
    | some make => .instr (make (fieldVd w) (fieldVs2 w) (fieldVm w))
    | none => .notInSpec .scalarSubOpcode
  else if fieldFunct6 w = 0b010100 then
    match decodeUnary (fieldVs1 w) with
    | some make => .instr (make (fieldVd w) (fieldVs2 w) (fieldVm w))
    | none => .notInSpec .unarySubOpcode
  else
    match decodeLogical (fieldFunct6 w) with
    | some make => .instr (make (fieldVd w) (fieldVs2 w) (fieldVs1 w) (fieldVm w))
    | none => .notInSpec .funct6

/-- The word in four bytes, the byte at the lowest address first: little-endian (R43). -/
def wordOfBytes (b0 b1 b2 b3 : Byte) : InsnWord := b3 ++ b2 ++ b1 ++ b0

/-- Byte `k` of a word, `k = 0` at the lowest address (R43). -/
def byteOfWord (w : InsnWord) (k : Nat) : Byte := w.extractLsb' (8 * k) 8

/-- What decoding a byte sequence answers: an instruction with the bytes after it, or why not. -/
inductive DecodedBytes where
  | instr (i : Instr) (rest : List Byte)
  | notInSpec (why : NotInSpec)
  deriving DecidableEq, Repr

/-- Decoding any bytes: every instruction is one little-endian 32-bit word (R43, R50). -/
def decodeBytes : List Byte → DecodedBytes
  | b0 :: b1 :: b2 :: b3 :: rest =>
    match decode (wordOfBytes b0 b1 b2 b3) with
    | .instr i => .instr i rest
    | .notInSpec why => .notInSpec why
  | _ => .notInSpec .truncated

/-! ### Reserved encodings that the fields alone decide (R61, R62; R126 check 1) -/

/-- The reserved verdict of a logical instruction (R61 a). -/
def reservedLogical (vm : Bool) : Option ReservedReason :=
  if vm then none else some .logicalMasked

/-- The overlap checks on fields shared by the set-first instructions and `viota.m` (R62). -/
def reservedOverlap (vd vs2 : RegNum) (vm : Bool) : Option ReservedReason :=
  if vd = vs2 then some .destOverlapsSource
  else if vm = false ∧ vd = 0 then some .maskedDestOverlapsV0
  else none

/-- The static checks of `vid.v` (R61 b, R62). -/
def reservedVid (vd vs2 : RegNum) (vm : Bool) : Option ReservedReason :=
  if vs2 ≠ 0 then some .vidSourceField
  else if vm = false ∧ vd = 0 then some .maskedDestOverlapsV0
  else none

/-- The static reserved verdict of an instruction (R68 `static_reserved`). -/
def staticReserved : Instr → Option ReservedReason
  | .vmandnot _ _ _ vm => reservedLogical vm
  | .vmand _ _ _ vm => reservedLogical vm
  | .vmor _ _ _ vm => reservedLogical vm
  | .vmxor _ _ _ vm => reservedLogical vm
  | .vmornot _ _ _ vm => reservedLogical vm
  | .vmnand _ _ _ vm => reservedLogical vm
  | .vmnor _ _ _ vm => reservedLogical vm
  | .vmxnor _ _ _ vm => reservedLogical vm
  | .vpopc _ _ _ => none
  | .vfirst _ _ _ => none
  | .vmsbf vd vs2 vm => reservedOverlap vd vs2 vm
  | .vmsof vd vs2 vm => reservedOverlap vd vs2 vm
  | .vmsif vd vs2 vm => reservedOverlap vd vs2 vm
  | .viota vd vs2 vm => reservedOverlap vd vs2 vm
  | .vid vd vs2 vm => reservedVid vd vs2 vm

/-! ### The encoder (R52) -/

/-- The common format: funct6, vm, vs2, vs1, 010, vd, 1010111, most significant first (R51, R52). -/
def assemble (funct6 : BitVec 6) (vm : Bool) (vs2 vs1 vd : RegNum) : InsnWord :=
  funct6 ++ BitVec.ofBool vm ++ vs2 ++ vs1 ++ 0b010#3 ++ vd ++ 0b1010111#7

/-- The word of an instruction (R52, R55 to R57). -/
def encode : Instr → InsnWord
  | .vmandnot vd vs2 vs1 vm => assemble 0b011000 vm vs2 vs1 vd
  | .vmand vd vs2 vs1 vm => assemble 0b011001 vm vs2 vs1 vd
  | .vmor vd vs2 vs1 vm => assemble 0b011010 vm vs2 vs1 vd
  | .vmxor vd vs2 vs1 vm => assemble 0b011011 vm vs2 vs1 vd
  | .vmornot vd vs2 vs1 vm => assemble 0b011100 vm vs2 vs1 vd
  | .vmnand vd vs2 vs1 vm => assemble 0b011101 vm vs2 vs1 vd
  | .vmnor vd vs2 vs1 vm => assemble 0b011110 vm vs2 vs1 vd
  | .vmxnor vd vs2 vs1 vm => assemble 0b011111 vm vs2 vs1 vd
  | .vpopc rd vs2 vm => assemble 0b010000 vm vs2 0b10000 rd
  | .vfirst rd vs2 vm => assemble 0b010000 vm vs2 0b10001 rd
  | .vmsbf vd vs2 vm => assemble 0b010100 vm vs2 0b00001 vd
  | .vmsof vd vs2 vm => assemble 0b010100 vm vs2 0b00010 vd
  | .vmsif vd vs2 vm => assemble 0b010100 vm vs2 0b00011 vd
  | .viota vd vs2 vm => assemble 0b010100 vm vs2 0b10000 vd
  | .vid vd vs2 vm => assemble 0b010100 vm vs2 0b10001 vd

/-- The four bytes of a word in memory order (R43). -/
def bytesOfWord (w : InsnWord) : List Byte :=
  [byteOfWord w 0, byteOfWord w 1, byteOfWord w 2, byteOfWord w 3]

/-- The four bytes of an instruction in memory order. -/
def encodeBytes (i : Instr) : List Byte := bytesOfWord (encode i)

/-- The word of an instruction whose table bits are `w`: the bits at and above `nbits` are 0. -/
def tableWord (nbits w : Nat) : InsnWord := BitVec.ofNat 32 (w % 2 ^ nbits)

/-- The instruction the decoder reads from the bytes of an opcode-table word. -/
def decodeTableWord (nbits w : Nat) : Option Instr :=
  match decodeBytes (bytesOfWord (tableWord nbits w)) with
  | .instr i _ => some i
  | .notInSpec _ => none

/-! ### Pseudoinstructions -/

/-- The instruction the assembler emits for a pseudoinstruction (R78 to R82). -/
def Pseudo.expand : Pseudo → Instr
  | .vmmv vd vs => .vmand vd vs vs true
  | .vmclr vd => .vmxor vd vd vd true
  | .vmset vd => .vmxnor vd vd vd true
  | .vmnot vd vs => .vmnand vd vs vs true
  | .vmcpy vd vs => .vmand vd vs vs true

end Sys2Proof
end

