-- ==== Sys2Proof/Config.lean ====
section
/-! DEFINITION. What an implementation fixes: the open parameters of R4 and of the table that closes
92_eei_decisions.md, as plain data, and the free values `any(N)` of R7. -/

namespace Sys2Proof

/-- XLEN, the width of an `x` register: 32 or 64 (R4, D2). -/
inductive XLen where
  | rv32
  | rv64
  deriving DecidableEq, Repr

/-- `reserved_behaviour` (R60, D12): what a reserved encoding does. -/
inductive ReservedBehaviour where
  /-- The default: the machine gives the word no meaning. -/
  | refuse
  /-- The word raises the illegal instruction exception. -/
  | illegalInstruction
  deriving DecidableEq, Repr

/-- `TrapEntry` (R127, D17): what follows a raised exception: the default, the entry the spec spells
out, or any other function of the cause, `pc`, the word and the state (log entry 9). -/
inductive TrapEntry where
  /-- The default: the fault is terminal (R120). -/
  | absent
  /-- The machine-mode trap entry R127 spells out. -/
  | machineMode
  /-- A function the platform gives, of which the model knows nothing: `Config.platformEntry` of
  `Sys2Proof/Machine/Ops.lean`. -/
  | platform
  deriving DecidableEq, Repr

/-- The parameters of the model (R4). No step writes them. -/
structure Params where
  xlen : XLen
  /-- VLEN, the bits of one vector register. -/
  vlen : Nat
  /-- ELEN, the largest element width in bits. -/
  elen : Nat
  reservedBehaviour : ReservedBehaviour
  /-- `vector_enabled` (R131, D16), the launch premise LP1 of R141. -/
  vectorEnabled : Bool
  trapEntry : TrapEntry
  /-- Whether `mtval` records the faulting instruction's bits, or 0: "the implementation's choice"
  (R121). -/
  mtvalRecordsInsn : Bool
  deriving DecidableEq, Repr

namespace Config

/-- The free values of the model: bit `position` of the `draw`-th draw (R7 `any(N)`, R30 to R32). No
body, so nothing can be proved of its value. DESIGN CHOICE: the form of a draw (log entry 6). -/
opaque freeBit : (draw position : Nat) → Bool

end Config

end Sys2Proof
end

