-- ==== Sys2Proof/Machine/State.lean ====
section
/-! DEFINITION. The machine's state as plain data (10_state.md), the reasons a step can stop, and the
state after reset. -/

namespace Sys2Proof.Machine

/-- The fields of `vtype` (R23): the model "may hold `vtype` as a record of the five fields". -/
structure VType where
  /-- Illegal configuration. -/
  vill : Bool
  /-- Mask agnostic: `false` leaves inactive elements undisturbed. -/
  vma : Bool
  /-- Tail agnostic: `false` leaves tail elements undisturbed. -/
  vta : Bool
  /-- SEW = 8 * 2^vsew. -/
  vsew : BitVec 3
  /-- LMUL = 2^vlmul, a signed three-bit exponent. -/
  vlmul : BitVec 3
  deriving DecidableEq, Repr

/-- The privilege modes a machine-mode trap entry saves and restores (R127, R128). -/
inductive Mode where
  | user
  | supervisor
  | machine
  deriving DecidableEq, Repr, Inhabited

/-- The fields of `mstatus` that the trap entry of R127 names. -/
structure MStatus where
  mie : Bool
  mpie : Bool
  mpp : Mode
  deriving DecidableEq, Repr, Inhabited

/-- The registers of the machine-mode trap entry (R121, R127). No in-scope instruction touches them
but by raising the exception when a trap entry is present (log entry 9). -/
structure TrapRegs where
  mepc : XWord
  mcause : XWord
  mtval : XWord
  mtvec : XWord
  mstatus : MStatus
  mode : Mode
  deriving DecidableEq, Repr, Inhabited

/-- Program text: bytes at addresses, addresses strictly rising. An unlisted address holds no value
(R42; log entry 7). -/
abbrev Memory := List Host.Cell

/-- Why a state is no launch state of the spec (R35, U10, U15). -/
inductive IllFormed where
  /-- XLEN, VLEN, ELEN outside R4 and R5. -/
  | parameters
  /-- `pc` is no XLEN-bit value (R13, R41; log entry 3). -/
  | pcRange
  /-- `pc` is not a multiple of 4 (R35, R44). -/
  | misalignedPc
  /-- `vstart` is not below VLEN. -/
  | vstartRange
  /-- `vill = 0` with an illegal `vsew` or `vlmul`. -/
  | vtypeIllegal
  /-- `vl` above VLMAX. -/
  | vlRange
  deriving DecidableEq, Repr

/-- Why the machine stops with a fault. -/
inductive Fault where
  /-- Raised by every instruction on the causes of R122, when `trapEntry = absent` (R120): the outcome
  `Fault(IllegalInstruction, pc, insn)`. Safe: a faulted state is never final. -/
  | illegalInstruction (pc : XWord) (insn : InsnWord)
  /-- Raised by the fetch at an address outside the program: "the hart is stuck" (R42). Safe. -/
  | stuckOutsideProgram (pc : XWord)
  deriving DecidableEq, Repr

/-- Why the machine gives no meaning. -/
inductive Refusal where
  /-- Raised by an arm of `exec` whose instruction has no meaning yet. Safe. -/
  | notModelled (mnemonic : String)
  /-- Raised by the decoder's answer on a word that is none of the fifteen: refused by name (R64).
  Safe. -/
  | notInSpec (why : NotInSpec) (insn : InsnWord)
  /-- Raised by a reserved encoding when `reserved_behaviour = refuse` (R60). Safe. -/
  | reserved (why : ReservedReason) (insn : InsnWord)
  /-- Raised from a state R35 calls ill formed: "outside the model: refused". Safe. -/
  | illFormedState (why : IllFormed)
  deriving DecidableEq, Repr

/-- The state of the machine: the table at the head of 10_state.md, the program text (R42), the
parameters (R4), the registers of the trap entry (R127), and the model's own count of draws. -/
structure State where
  /-- R4: written by no step. -/
  params : Params
  /-- `x0` to `x31` (R10). -/
  x : Vector XWord 32
  /-- R13. -/
  pc : XWord
  /-- `v0` to `v31` (R14). -/
  v : Vector VReg 32
  /-- R20. -/
  vstart : Nat
  /-- R21. -/
  vl : Nat
  /-- R22. -/
  vtype : VType
  /-- R127. -/
  trap : TrapRegs
  /-- R42: written by no step. -/
  mem : Memory
  /-- The number of the next draw of free values: the model's own (log entry 6). -/
  draws : Nat
  deriving DecidableEq, Repr

/-- The machine at reset. The spec states only `x[0] = 0` and leaves the rest unspecified (R34).
DESIGN CHOICE: the values the model names (log entries 1, 4 and 10); `vtype` and `vl` are at the
values R34 quotes as recommended. -/
def State.reset : State where
  params :=
    { xlen := .rv64, vlen := 128, elen := 64, reservedBehaviour := .refuse, vectorEnabled := true,
      trapEntry := .absent, mtvalRecordsInsn := true }
  x := Vector.replicate 32 0
  pc := 0
  v := Vector.replicate 32 (List.replicate 128 false)
  vstart := 0
  vl := 0
  vtype := { vill := true, vma := false, vta := false, vsew := 0, vlmul := 0 }
  trap :=
    { mepc := 0, mcause := 0, mtval := 0, mtvec := 0,
      mstatus := { mie := false, mpie := false, mpp := .machine }, mode := .machine }
  mem := []
  draws := 0

end Sys2Proof.Machine
end

