-- ==== Sys2Proof/Machine/Memory.lean ====
section
/-! DEFINITION. Operations on the program text (R41 to R45): reading and placing bytes and
little-endian words. Only a launch writes it; no step does (R42). -/

namespace Sys2Proof.Machine

/-- XLEN in bits (R4). -/
def xlenBits : XLen → Nat
  | .rv32 => 32
  | .rv64 => 64

/-- An address: XLEN bits, wrapping modulo 2^XLEN (R41). -/
def wrapAddr (xl : XLen) (a : Nat) : Nat := a % 2 ^ xlenBits xl

/-- The byte at an address, or none where nothing was placed: "a finite partial map" (R42). -/
def Memory.read (a : Nat) : Memory → Option Byte
  | [] => none
  | (k, b) :: rest => if k = a then some b else Memory.read a rest

/-- Places a byte, keeping the addresses strictly rising. -/
def Memory.write (a : Nat) (b : Byte) : Memory → Memory
  | [] => [(a, b)]
  | (k, c) :: rest =>
    if a < k then (a, b) :: (k, c) :: rest
    else if a = k then (a, b) :: rest
    else (k, c) :: Memory.write a b rest

/-- The canonical form: addresses strictly rising. An unlisted address has no value, so no entry can
equal what it reads as. -/
def Memory.wf : Memory → Bool
  | [] => true
  | [_] => true
  | (k, _) :: (k', c) :: rest => decide (k < k') && Memory.wf ((k', c) :: rest)

/-- The byte at an address that wraps (R41). -/
def Memory.readAt (m : Memory) (xl : XLen) (a : Nat) : Option Byte := m.read (wrapAddr xl a)

/-- The 32-bit word at an address, little-endian, if all four bytes are there (R42, R43). -/
def Memory.readWord (m : Memory) (xl : XLen) (a : Nat) : Option InsnWord :=
  match m.readAt xl a, m.readAt xl (a + 1), m.readAt xl (a + 2), m.readAt xl (a + 3) with
  | some b0, some b1, some b2, some b3 => some (wordOfBytes b0 b1 b2 b3)
  | _, _, _, _ => none

/-- Places bytes from an address up, wrapping modulo 2^XLEN (R41). -/
def Memory.writeBytes (xl : XLen) (a : Nat) : List Byte → Memory → Memory
  | [], m => m
  | b :: rest, m => Memory.writeBytes xl (a + 1) rest (m.write (wrapAddr xl a) b)

/-- Places a program: `prog(base, words)` of R141 LP6. -/
def Memory.writeProgram (xl : XLen) (base : Nat) : List InsnWord → Memory → Memory
  | [], m => m
  | w :: rest, m => Memory.writeProgram xl (base + 4) rest (m.writeBytes xl base (bytesOfWord w))

end Sys2Proof.Machine
end

