-- ==== Sys2Proof/Machine/Ops.lean ====
section
/-! DEFINITION. The named operations on registers and control state (R10 to R27), fetching (R42 to
R44), and taking the illegal instruction exception and returning from it (R120 to R128). -/

namespace Sys2Proof.Machine

/-! ### Updating one field -/

def State.setX (s : State) (x : Vector XWord 32) : State := { s with x := x }
def State.setPc (s : State) (pc : XWord) : State := { s with pc := pc }
def State.setV (s : State) (v : Vector VReg 32) : State := { s with v := v }
def State.setVstart (s : State) (n : Nat) : State := { s with vstart := n }
def State.setTrap (s : State) (t : TrapRegs) : State := { s with trap := t }
def State.setMem (s : State) (m : Memory) : State := { s with mem := m }
def State.setDraws (s : State) (n : Nat) : State := { s with draws := n }

/-! ### Scalar registers and the program counter -/

/-- `trunc_XLEN` (R6): the low XLEN bits. -/
def truncX : XLen → XWord → XWord
  | .rv32, w => (w.setWidth 32).setWidth 64
  | .rv64, w => w

theorem regNum_lt (r : RegNum) : r.toNat < 32 := r.isLt

/-- `x[i]`; `x[0]` reads 0 (R11). -/
def State.readX (s : State) (r : RegNum) : XWord :=
  if r = 0 then 0 else s.x[r.toNat]'(regNum_lt r)

/-- `x[i] <- v`; discarded when `i = 0` (R11). -/
def State.writeX (s : State) (r : RegNum) (w : XWord) : State :=
  if r = 0 then s else s.setX (s.x.set r.toNat (truncX s.params.xlen w) (regNum_lt r))

/-- The address after the instruction: `trunc_XLEN(pc + 4)` (R13). -/
def State.nextPc (s : State) : XWord := truncX s.params.xlen (s.pc + 4)

/-- `pc <- pc + 4` (R13). -/
def State.advance (s : State) : State := s.setPc s.nextPc

/-! ### Vector registers -/

/-- `v[n]` (R14). -/
def State.readV (s : State) (n : RegNum) : VReg := s.v[n.toNat]'(regNum_lt n)

/-- `v[n] <- NEW`. -/
def State.writeV (s : State) (n : RegNum) (r : VReg) : State :=
  s.setV (s.v.set n.toNat r (regNum_lt n))

/-- The state after an instruction that drew free values: the next draw is another. -/
def State.nextDraw (s : State) : State := s.setDraws (s.draws + 1)

/-! ### Fetch -/

/-- `Prog(pc)` (R42): `pc` is used as the fetch address directly (R47). -/
def State.fetch (s : State) : Option InsnWord := s.mem.readWord s.params.xlen s.pc.toNat

/-- `pc` is a multiple of 4 (R13, R44). -/
def State.pcAligned (s : State) : Bool := s.pc.extractLsb' 0 2 = 0

/-! ### The illegal instruction exception -/

/-- The exception code of the illegal instruction exception (R121). -/
def illegalInstructionCause : XWord := 2

/-- `mtvec.BASE`: the register with its two low bits 0 (PRESUMED: the place of BASE; log entry 10). -/
def trapBase (mtvec : XWord) : XWord := mtvec &&& ~~~3#64

/-- The machine-mode trap entry (R127): `mepc <- pc`; `mcause <- 2`; `mtval <- insn or 0`;
`MPIE <- MIE`; `MIE <- 0`; `MPP <- mode`; `mode <- M`; `pc <- mtvec.BASE`. Nothing else changes. -/
def State.takeIllegal (s : State) (insn : InsnWord) : State :=
  (s.setTrap
    { mepc := s.pc
      mcause := illegalInstructionCause
      mtval := if s.params.mtvalRecordsInsn then insn.setWidth 64 else 0
      mtvec := s.trap.mtvec
      mstatus := { mie := false, mpie := s.trap.mstatus.mie, mpp := s.trap.mode }
      mode := .machine }).setPc (trapBase (truncX s.params.xlen s.trap.mtvec))

/-- The part of the state a trap entry can set: not the vector registers, `vstart`, `vl`, `vtype`
(R127), the program text (R42) or the parameters (R4). -/
structure EntryResult where
  x : Vector XWord 32
  pc : XWord
  trap : TrapRegs
  deriving DecidableEq, Repr, Inhabited

end Sys2Proof.Machine

namespace Sys2Proof.Config

open Sys2Proof.Machine

/-- The open parameter `TrapEntry` as "a function from `(cause, pc, insn, state)`" (R127). No body, so
nothing can be proved of what it answers (log entry 9). -/
opaque platformEntry : (cause pc : XWord) → (insn : InsnWord) → State → EntryResult

end Sys2Proof.Config

namespace Sys2Proof.Machine

/-- The registers of the trap entry as XLEN-bit values. -/
def TrapRegs.trunc (t : TrapRegs) (xl : XLen) : TrapRegs :=
  { t with
    mepc := truncX xl t.mepc
    mcause := truncX xl t.mcause
    mtval := truncX xl t.mtval
    mtvec := truncX xl t.mtvec }

/-- The trap entry of the platform (R127): what `Config.platformEntry` answers, read as XLEN-bit values
(R10), `x[0]` 0 (R11), and a `pc` that is a multiple of 4 (R13). -/
def State.takePlatform (s : State) (insn : InsnWord) : State :=
  let r := Config.platformEntry illegalInstructionCause s.pc insn s
  ((s.setX ((r.x.map (truncX s.params.xlen)).set 0 0)).setTrap (r.trap.trunc s.params.xlen)).setPc
    (truncX s.params.xlen r.pc &&& ~~~3#64)

/-- Trap return as R128 describes it: `pc <- mepc`, the interrupt enable and the mode restored from
`mstatus`. No in-scope instruction performs it (log entry 11). -/
def State.returnFromTrap (s : State) : State :=
  (s.setTrap
    { s.trap with
      mstatus := { s.trap.mstatus with mie := s.trap.mstatus.mpie }
      mode := s.trap.mstatus.mpp }).setPc s.trap.mepc

/-- `raise IllegalInstruction(insn)` (R120, R123): nothing is written by the instruction; the outcome
is the fault, or with a trap entry present the state after it. -/
def raiseIllegal (insn : InsnWord) (s : State) : Host.Outcome State Fault Refusal :=
  match s.params.trapEntry with
  | .absent => .fault (.illegalInstruction s.pc insn)
  | .machineMode => .next (s.takeIllegal insn)
  | .platform => .next (s.takePlatform insn)

/-- `reserved()` (R60): what `reserved_behaviour` says. -/
def reservedOutcome (why : ReservedReason) (insn : InsnWord) (s : State) :
    Host.Outcome State Fault Refusal :=
  match s.params.reservedBehaviour with
  | .refuse => .refused (.reserved why insn)
  | .illegalInstruction => raiseIllegal insn s

end Sys2Proof.Machine
end

