-- ==== Sys2Proof/Machine/Operands.lean ====
section
/-! DEFINITION. Operand forms: the quantities derived from `vtype` (R24), mask elements (R15, R16),
elements of a register group (R17), and well-formed states (R35). -/

namespace Sys2Proof.Machine

/-! ### Quantities derived from `vtype` (R24) -/

/-- `SEW = 8 * 2^vsew`, in bits. -/
def VType.sew (t : VType) : Nat := 8 * 2 ^ t.vsew.toNat

/-- LMUL is `lmulNum / lmulDen`: `LMUL = 2^sext(vlmul)`. -/
def VType.lmulNum (t : VType) : Nat := 2 ^ t.vlmul.toInt.toNat

/-- See `VType.lmulNum`. -/
def VType.lmulDen (t : VType) : Nat := 2 ^ (-t.vlmul.toInt).toNat

/-- `G = max(1, LMUL)`: the registers of a destination group (R62, R110). -/
def VType.groupSize (t : VType) : Nat := t.lmulNum

/-- `VLMAX = LMUL * VLEN / SEW`. -/
def VType.vlmax (t : VType) (vlen : Nat) : Nat := t.lmulNum * vlen / (t.lmulDen * t.sew)

/-- `vsew` and `vlmul` are legal values with `SEW <= ELEN` and `VLMAX >= 1` (R23, R35). -/
def VType.legal (t : VType) (p : Params) : Bool :=
  decide (t.vsew.toNat ≤ 3) && decide (t.vlmul ≠ 0b100) && decide (t.sew ≤ p.elen) &&
    decide (1 ≤ t.vlmax p.vlen)

/-! ### Well-formed states -/

/-- The values of VLEN: the powers of two from 8 to 65536 (R4). -/
def vlenValues : List Nat :=
  [8, 16, 32, 64, 128, 256, 512, 1024, 2048, 4096, 8192, 16384, 32768, 65536]

/-- XLEN, VLEN and ELEN are in the ranges of R4, and `VLEN <= 2^(XLEN-1)` (R5). -/
def paramsOk (p : Params) : Bool :=
  decide (p.vlen ∈ vlenValues) && decide (p.elen ∈ [8, 16, 32, 64]) && decide (p.elen ≤ p.vlen) &&
    decide (p.vlen ≤ 2 ^ (xlenBits p.xlen - 1))

/-- What R35 finds wrong with a state, if anything. With `vill = 1`, where VLMAX has no meaning, `vl`
is held to VLEN, the bound of R5 (DESIGN CHOICE, log entry 13). -/
def State.illFormed (s : State) : Option IllFormed :=
  if paramsOk s.params = false then some .parameters
  else if truncX s.params.xlen s.pc ≠ s.pc then some .pcRange
  else if s.pcAligned = false then some .misalignedPc
  else if s.params.vlen ≤ s.vstart then some .vstartRange
  else if s.vtype.vill then
    if s.params.vlen < s.vl then some .vlRange else none
  else if s.vtype.legal s.params = false then some .vtypeIllegal
  else if s.vtype.vlmax s.params.vlen < s.vl then some .vlRange
  else none

/-- The configuration a launch gives where none is held (R141 LP3): with `vill = 1`, SEW = 8 and
LMUL = 1, nothing agnostic, `vl` kept up to VLMAX; a legal configuration stays (log entry 5). -/
def State.launchConfig (s : State) : State :=
  if s.vtype.vill then
    { s with
      vtype := { vill := false, vma := false, vta := false, vsew := 0, vlmul := 0 }
      vl := min s.vl (s.params.vlen / 8) }
  else s

/-! ### Mask elements (R15) -/

/-- `v[n].mask[i]`: bit `i` of vector register `n`, whatever SEW and LMUL are. -/
def State.maskBit (s : State) (n : RegNum) (i : Nat) : Bool := (s.readV n).getD i false

/-! ### Elements of a register group (R17) -/

/-- The number whose bits are these, the first least significant. -/
def natOfBits (bits : List Bool) : Nat := bits.foldr (fun b n => b.toNat + 2 * n) 0

/-- `elt(n, i, SEW)` as an unsigned number: bits `i*SEW mod VLEN` and up of register
`n + floor(i*SEW / VLEN)`. -/
def State.elt (s : State) (n : RegNum) (i : Nat) : Nat :=
  natOfBits (((s.v[n.toNat + i * s.vtype.sew / s.params.vlen]?.getD []).drop
    (i * s.vtype.sew % s.params.vlen)).take s.vtype.sew)

/-- `N = G * VLEN / SEW`: the elements the destination group can hold (R28, R110). -/
def State.groupElements (s : State) : Nat :=
  s.vtype.groupSize * s.params.vlen / s.vtype.sew

end Sys2Proof.Machine
end

