-- ==== Sys2Proof/Machine/Flags.lean ====
section
/-! DEFINITION. The machine has no condition codes and no status flags (R19). Its one predicate is the
execution mask (R29); with it, the element classes (R28), what a destination holds in each of them
(R30 to R32), and the searches over active source elements. -/

namespace Sys2Proof.Machine

/-- `enabled(i) = (vm == 1) or (v[0].mask[i] == 1)` (R29). -/
def State.enabled (s : State) (vm : Bool) (i : Nat) : Bool := vm || s.maskBit 0 i

/-- The class of a destination element (R28). -/
inductive ElementClass where
  | prestart
  | tail
  | active
  | inactive
  deriving DecidableEq, Repr

/-- The class of element `i`, tested in the order of R28. -/
def State.elementClass (s : State) (vm : Bool) (i : Nat) : ElementClass :=
  if i < s.vstart then .prestart
  else if s.vl ≤ i then .tail
  else if s.enabled vm i then .active
  else .inactive

/-- Element `i` of a mask destination `vd` whose active elements get `body`: prestart unchanged, tail a
draw whatever `vta` is (R30), inactive by `vma` (R31). -/
def State.newMaskBit (s : State) (vd : RegNum) (vm : Bool) (body : Nat → Bool) (i : Nat) : Bool :=
  match s.elementClass vm i with
  | .prestart => s.maskBit vd i
  | .tail => Config.freeBit s.draws i
  | .active => body i
  | .inactive => if s.vtype.vma then Config.freeBit s.draws i else s.maskBit vd i

/-- The whole new value of a mask destination: one register, VLEN elements (R16, R28). -/
def State.newMask (s : State) (vd : RegNum) (vm : Bool) (body : Nat → Bool) : VReg :=
  (List.range s.params.vlen).map (s.newMaskBit vd vm body)

/-- Bit `p` of a destination group, counted from bit 0 of its first register, `old` being its old
value: bit `p mod SEW` of element `p / SEW` (R17). Active elements get `trunc_SEW(value i)`; prestart
unchanged; tail by `vta` (R32), inactive by `vma` (R31). -/
def State.newGroupBit (s : State) (vm : Bool) (value : Nat → Nat) (old : Bool) (p : Nat) : Bool :=
  match s.elementClass vm (p / s.vtype.sew) with
  | .prestart => old
  | .tail => if s.vtype.vta then Config.freeBit s.draws p else old
  | .active => (value (p / s.vtype.sew)).testBit (p % s.vtype.sew)
  | .inactive => if s.vtype.vma then Config.freeBit s.draws p else old

/-- The new value of register `n` as register `k` of a destination group. -/
def State.newGroupReg (s : State) (vm : Bool) (value : Nat → Nat) (n : RegNum) (k : Nat) : VReg :=
  (List.range s.params.vlen).map fun j =>
    s.newGroupBit vm value (s.maskBit n j) (k * s.params.vlen + j)

/-- The vector registers after the group of `max(1, LMUL)` registers at `vd` is written (R17). -/
def State.newGroup (s : State) (vd : RegNum) (vm : Bool) (value : Nat → Nat) : Vector VReg 32 :=
  Vector.ofFn fun r =>
    if vd.toNat ≤ r.val ∧ r.val < vd.toNat + s.vtype.groupSize then
      s.newGroupReg vm value (BitVec.ofFin r) (r.val - vd.toNat)
    else s.v[r]

/-- Element `i` of `vs2` is enabled and 1. -/
def State.activeSet (s : State) (vs2 : RegNum) (vm : Bool) (i : Nat) : Bool :=
  s.enabled vm i && s.maskBit vs2 i

/-- How many elements of `vs2` with index below `n` are enabled and 1 (R90, R110). -/
def State.countBelow (s : State) (vs2 : RegNum) (vm : Bool) (n : Nat) : Nat :=
  (List.range n).countP (s.activeSet vs2 vm)

/-- The lowest index below `vl` whose element of `vs2` is active and 1 (R95, R103; C2). -/
def State.firstSet (s : State) (vs2 : RegNum) (vm : Bool) : Option Nat :=
  (List.range s.vl).find? (s.activeSet vs2 vm)

end Sys2Proof.Machine
end

