-- ==== Sys2Proof/Machine/Checks.lean ====
section
/-! DEFINITION. The checks every instruction makes before it writes anything, in the order of R126, and
the reserved checks that need LMUL (R62, R63). -/

namespace Sys2Proof.Machine

/-- The destination group is not aligned: `LMUL > 1 and vd mod LMUL != 0` (R63). -/
def State.groupMisaligned (s : State) (vd : RegNum) : Bool :=
  decide (vd.toNat % s.vtype.groupSize ≠ 0)

/-- `viota.m`'s reserved checks that need LMUL: alignment (R63), then `vd <= vs2 < vd + G` (R62). -/
def State.reservedIota (s : State) (vd vs2 : RegNum) : Option ReservedReason :=
  if s.groupMisaligned vd then some .groupMisaligned
  else if vd.toNat ≤ vs2.toNat ∧ vs2.toNat < vd.toNat + s.vtype.groupSize then
    some .groupOverlapsSource
  else none

/-- `vid.v`'s reserved check that needs LMUL (R63). -/
def State.reservedId (s : State) (vd : RegNum) : Option ReservedReason :=
  if s.groupMisaligned vd then some .groupMisaligned else none

/-- What every instruction does: from an ill-formed state refuse (R35); then the checks of R126 in
order: static reserved, the vector unit off (R131; its place is a DESIGN CHOICE, log entry 12) or
`vill` (R27), reserved by LMUL, and for the six instructions of R122 `vstart != 0`. The first that
fires decides; if none does, the instruction completes in `done`, in one transition (R8). -/
def attempt (i : Instr) (byLmul : Option ReservedReason) (needsVstartZero : Bool) (done : State)
    (s : State) : Host.Outcome State Fault Refusal :=
  match s.illFormed with
  | some why => .refused (.illFormedState why)
  | none =>
    match staticReserved i with
    | some why => reservedOutcome why (encode i) s
    | none =>
      if s.params.vectorEnabled = false ∨ s.vtype.vill = true then raiseIllegal (encode i) s
      else
        match byLmul with
        | some why => reservedOutcome why (encode i) s
        | none =>
          if needsVstartZero = true ∧ s.vstart ≠ 0 then raiseIllegal (encode i) s
          else .next done

end Sys2Proof.Machine
end

