-- ==== Sys2Proof/Machine/MaskElement.lean ====
section
/-! DEFINITION. The mask instructions that write a register group of SEW-bit elements: `viota.m`
(44_viota.md) and `vid.v` (45_vid.md). -/

namespace Sys2Proof.Machine

/-- R110: active element `i` gets the number of active set elements of `vs2` below `i`, truncated to
SEW bits. -/
def execViota (vd vs2 : RegNum) (vm : Bool) (s : State) : Host.Outcome State Fault Refusal :=
  attempt (.viota vd vs2 vm) (s.reservedIota vd vs2) true
    ((s.setV (s.newGroup vd vm fun i => s.countBelow vs2 vm i)).nextDraw).advance s

/-- R115: active element `i` gets `i`, truncated to SEW bits; `vstart <- 0` (R117). -/
def execVid (vd vs2 : RegNum) (vm : Bool) (s : State) : Host.Outcome State Fault Refusal :=
  attempt (.vid vd vs2 vm) (s.reservedId vd) false
    (((s.setV (s.newGroup vd vm fun i => i)).setVstart 0).nextDraw).advance s

end Sys2Proof.Machine
end

