-- ==== Sys2Proof/Machine/MaskLogical.lean ====
section
/-! DEFINITION. The eight vector mask-register logical instructions (40_mask_logical.md). -/

namespace Sys2Proof.Machine

/-- What `LOGICAL(f, vd, vs2, vs1, vm)` of R83 leaves: body elements `f(vs2 bit, vs1 bit)`, always
active; `vstart <- 0`; `pc <- pc + 4`. -/
def State.logical (s : State) (f : Bool → Bool → Bool) (vd vs2 vs1 : RegNum) : State :=
  (((s.writeV vd (s.newMask vd true fun i => f (s.maskBit vs2 i) (s.maskBit vs1 i))).setVstart
    0).nextDraw).advance

/-- R72: `vd.mask[i] = vs2.mask[i] && !vs1.mask[i]` -/
def execVmandnot (vd vs2 vs1 : RegNum) (vm : Bool) (s : State) : Host.Outcome State Fault Refusal :=
  attempt (.vmandnot vd vs2 vs1 vm) none false (s.logical (fun a b => a && !b) vd vs2 vs1) s

/-- R70: `vd.mask[i] = vs2.mask[i] && vs1.mask[i]` -/
def execVmand (vd vs2 vs1 : RegNum) (vm : Bool) (s : State) : Host.Outcome State Fault Refusal :=
  attempt (.vmand vd vs2 vs1 vm) none false (s.logical (fun a b => a && b) vd vs2 vs1) s

/-- R74: `vd.mask[i] = vs2.mask[i] || vs1.mask[i]` -/
def execVmor (vd vs2 vs1 : RegNum) (vm : Bool) (s : State) : Host.Outcome State Fault Refusal :=
  attempt (.vmor vd vs2 vs1 vm) none false (s.logical (fun a b => a || b) vd vs2 vs1) s

/-- R73: `vd.mask[i] = vs2.mask[i] ^^ vs1.mask[i]` -/
def execVmxor (vd vs2 vs1 : RegNum) (vm : Bool) (s : State) : Host.Outcome State Fault Refusal :=
  attempt (.vmxor vd vs2 vs1 vm) none false (s.logical (fun a b => a ^^ b) vd vs2 vs1) s

/-- R76: `vd.mask[i] = vs2.mask[i] || !vs1.mask[i]` -/
def execVmornot (vd vs2 vs1 : RegNum) (vm : Bool) (s : State) : Host.Outcome State Fault Refusal :=
  attempt (.vmornot vd vs2 vs1 vm) none false (s.logical (fun a b => a || !b) vd vs2 vs1) s

/-- R71: `vd.mask[i] = !(vs2.mask[i] && vs1.mask[i])` -/
def execVmnand (vd vs2 vs1 : RegNum) (vm : Bool) (s : State) : Host.Outcome State Fault Refusal :=
  attempt (.vmnand vd vs2 vs1 vm) none false (s.logical (fun a b => !(a && b)) vd vs2 vs1) s

/-- R75: `vd.mask[i] = !(vs2.mask[i] || vs1.mask[i])` -/
def execVmnor (vd vs2 vs1 : RegNum) (vm : Bool) (s : State) : Host.Outcome State Fault Refusal :=
  attempt (.vmnor vd vs2 vs1 vm) none false (s.logical (fun a b => !(a || b)) vd vs2 vs1) s

/-- R77: `vd.mask[i] = !(vs2.mask[i] ^^ vs1.mask[i])` -/
def execVmxnor (vd vs2 vs1 : RegNum) (vm : Bool) (s : State) : Host.Outcome State Fault Refusal :=
  attempt (.vmxnor vd vs2 vs1 vm) none false (s.logical (fun a b => !(a ^^ b)) vd vs2 vs1) s

end Sys2Proof.Machine
end

