-- ==== Sys2Proof/Machine/MaskScalar.lean ====
section
/-! DEFINITION. The mask instructions with a scalar result: `vpopc.m` (41_vpopc.md) and `vfirst.m`
(42_vfirst.md). -/

namespace Sys2Proof.Machine

/-- The index of a found element, or -1 as an XLEN-bit value: all ones (R95). -/
def firstResult (xl : XLen) : Option Nat → XWord
  | some i => BitVec.ofNat 64 i
  | none => truncX xl (BitVec.allOnes 64)

/-- R90: `x[rd]` gets the count of active elements of `vs2` that are 1, over `0 <= i < vl`. -/
def execVpopc (rd vs2 : RegNum) (vm : Bool) (s : State) : Host.Outcome State Fault Refusal :=
  attempt (.vpopc rd vs2 vm) none true
    (s.writeX rd (BitVec.ofNat 64 (s.countBelow vs2 vm s.vl))).advance s

/-- R95: `x[rd]` gets the lowest index of an active element of `vs2` that is 1, or -1. -/
def execVfirst (rd vs2 : RegNum) (vm : Bool) (s : State) : Host.Outcome State Fault Refusal :=
  attempt (.vfirst rd vs2 vm) none true
    (s.writeX rd (firstResult s.params.xlen (s.firstSet vs2 vm))).advance s

end Sys2Proof.Machine
end

