-- ==== Sys2Proof/Machine/SetFirst.lean ====
section
/-! DEFINITION. The set-first instructions `vmsbf.m`, `vmsif.m`, `vmsof.m` (43_set_first.md). -/

namespace Sys2Proof.Machine

/-- `g(i, first)` of `vmsbf.m` (R100): 1 if first is none or `i < first`. -/
def beforeFirst (first : Option Nat) (i : Nat) : Bool :=
  match first with
  | none => true
  | some k => decide (i < k)

/-- `g(i, first)` of `vmsif.m` (R101): 1 if first is none or `i <= first`. -/
def includingFirst (first : Option Nat) (i : Nat) : Bool :=
  match first with
  | none => true
  | some k => decide (i ≤ k)

/-- `g(i, first)` of `vmsof.m` (R102): 1 if first is not none and `i == first`. -/
def onlyFirst (first : Option Nat) (i : Nat) : Bool :=
  match first with
  | none => false
  | some k => decide (i = k)

/-- What `SETFIRST(g, vd, vs2, vm)` of R103 leaves. -/
def State.setFirst (s : State) (g : Option Nat → Nat → Bool) (vd vs2 : RegNum) (vm : Bool) : State :=
  ((s.writeV vd (s.newMask vd vm (g (s.firstSet vs2 vm)))).nextDraw).advance

/-- R100, set-before-first. -/
def execVmsbf (vd vs2 : RegNum) (vm : Bool) (s : State) : Host.Outcome State Fault Refusal :=
  attempt (.vmsbf vd vs2 vm) none true (s.setFirst beforeFirst vd vs2 vm) s

/-- R101, set-including-first. -/
def execVmsif (vd vs2 : RegNum) (vm : Bool) (s : State) : Host.Outcome State Fault Refusal :=
  attempt (.vmsif vd vs2 vm) none true (s.setFirst includingFirst vd vs2 vm) s

/-- R102, set-only-first. -/
def execVmsof (vd vs2 : RegNum) (vm : Bool) (s : State) : Host.Outcome State Fault Refusal :=
  attempt (.vmsof vd vs2 vm) none true (s.setFirst onlyFirst vd vs2 vm) s

end Sys2Proof.Machine
end

