-- ==== Sys2Proof/Machine/Dispatch.lean ====
section
/-! DEFINITION. The one match from an instruction to its meaning. -/

namespace Sys2Proof.Machine

def exec (i : Instr) (s : State) : Host.Outcome State Fault Refusal :=
  match i with
  | .vmandnot vd vs2 vs1 vm => Sys2Proof.Machine.execVmandnot vd vs2 vs1 vm s
  | .vmand vd vs2 vs1 vm => Sys2Proof.Machine.execVmand vd vs2 vs1 vm s
  | .vmor vd vs2 vs1 vm => Sys2Proof.Machine.execVmor vd vs2 vs1 vm s
  | .vmxor vd vs2 vs1 vm => Sys2Proof.Machine.execVmxor vd vs2 vs1 vm s
  | .vmornot vd vs2 vs1 vm => Sys2Proof.Machine.execVmornot vd vs2 vs1 vm s
  | .vmnand vd vs2 vs1 vm => Sys2Proof.Machine.execVmnand vd vs2 vs1 vm s
  | .vmnor vd vs2 vs1 vm => Sys2Proof.Machine.execVmnor vd vs2 vs1 vm s
  | .vmxnor vd vs2 vs1 vm => Sys2Proof.Machine.execVmxnor vd vs2 vs1 vm s
  | .vpopc rd vs2 vm => Sys2Proof.Machine.execVpopc rd vs2 vm s
  | .vfirst rd vs2 vm => Sys2Proof.Machine.execVfirst rd vs2 vm s
  | .vmsbf vd vs2 vm => Sys2Proof.Machine.execVmsbf vd vs2 vm s
  | .vmsof vd vs2 vm => Sys2Proof.Machine.execVmsof vd vs2 vm s
  | .vmsif vd vs2 vm => Sys2Proof.Machine.execVmsif vd vs2 vm s
  | .viota vd vs2 vm => Sys2Proof.Machine.execViota vd vs2 vm s
  | .vid vd vs2 vm => Sys2Proof.Machine.execVid vd vs2 vm s

end Sys2Proof.Machine
end

