-- ==== Sys2Proof/Machine/Step.lean ====
section
/-! DEFINITION. One step (R42): fetch at `pc`, decode, execute; and the placing of one instruction for
the next step. -/

namespace Sys2Proof.Machine

/-- An ill-formed state is refused (R35), a misaligned `pc` with it (R44); outside the program the hart
is stuck (R42); a word that is no instruction is refused by name (R64); otherwise the instruction is
executed. DESIGN CHOICE: of several stops that apply, the first in this order is reported, and of
several reasons why the state is ill formed the first of `State.illFormed` (log entry 27). -/
def step (s : State) : Host.Outcome State Fault Refusal :=
  match s.illFormed with
  | some why => .refused (.illFormedState why)
  | none =>
    match s.fetch with
    | none => .fault (.stuckOutsideProgram s.pc)
    | some w =>
      match decode w with
      | .notInSpec why => .refused (.notInSpec why w)
      | .instr i => exec i s

/-- The launch of one instruction at `pc` (R141): its word placed there (LP6) and, where no legal
configuration is held (`vill = 1`), one given (LP3). DESIGN CHOICE (log entry 5). -/
def State.withFetchWord (s : State) (nbits w : Nat) : State :=
  (s.launchConfig).setMem (s.mem.writeBytes s.params.xlen s.pc.toNat (bytesOfWord (tableWord nbits w)))

end Sys2Proof.Machine
end

