-- ==== Sys2Proof/Machine/Csr.lean ====
section
/-! DEFINITION. The vector control and status registers as software would see them (R20 to R25): their
numbers, the layout of `vtype`, and what a write keeps. No in-scope instruction accesses a register by
number (log entry 22). -/

namespace Sys2Proof.Machine

/-- The layout of `vtype` (R23): `vill` at bit XLEN-1, `vma` 7, `vta` 6, `vsew` 5:3, `vlmul` 2:0. With
`vill = 1` the other fields read 0. -/
def vtypeWord (xl : XLen) (t : VType) : XWord :=
  if t.vill then 1#64 <<< (xlenBits xl - 1)
  else (BitVec.ofBool t.vma ++ BitVec.ofBool t.vta ++ t.vsew ++ t.vlmul).setWidth 64

/-- A read by number: `vstart` 0x008 (R20), `vl` 0xC20 (R21), `vtype` 0xC21 (R22), `vlenb` 0xC22, which
is VLEN/8 (R25). The model holds no other. -/
def State.readCsr (s : State) (number : BitVec 12) : Option XWord :=
  if number = 0x008 then some (BitVec.ofNat 64 s.vstart)
  else if number = 0xC20 then some (BitVec.ofNat 64 s.vl)
  else if number = 0xC21 then some (vtypeWord s.params.xlen s.vtype)
  else if number = 0xC22 then some (BitVec.ofNat 64 (s.params.vlen / 8))
  else none

/-- A write by number: only `vstart` is writable, and of it only the low log2(VLEN) bits (R20); `vl`,
`vtype` and `vlenb` are read-only (R21, R22, R25). -/
def State.writeCsr (s : State) (number : BitVec 12) (w : XWord) : Option State :=
  if number = 0x008 then some (s.setVstart (w.toNat % s.params.vlen)) else none

end Sys2Proof.Machine
end

