-- ==== Sys2Proof/Safety.lean ====
section
/-! DEFINITION. What counts as a safe run: the launch premises (R141), the invariant of the machine's
plain data, and the end of a run (R143). -/

namespace Sys2Proof.Machine

/-- The state can run vector instructions: LP1 `vector_enabled`, LP2 `well_formed`, and of LP3 that a
legal configuration is held (R141). -/
abbrev State.Ready (s : State) : Prop :=
  s.illFormed = none ∧ s.params.vectorEnabled = true ∧ s.vtype.vill = false

/-- LP6 `prog(base, words)` (R141): word `k` of the program stands at `base + 4*k`. -/
abbrev State.Loaded (s : State) (base : Nat) (words : List InsnWord) : Prop :=
  ∀ k ∈ List.range words.length, s.mem.readWord s.params.xlen (base + 4 * k) = words[k]?

/-- `pc` is past `n` words from `base`: `pc = base + 4*n` (R143), modulo 2^XLEN (R13, R41). Of `pc`
alone: what the end of a run asks besides is in `State.Ends`. -/
abbrev State.Finished (s : State) (base n : Nat) : Prop :=
  s.pc.toNat = wrapAddr s.params.xlen (base + 4 * n)

/-- Every register of the trap entry is an XLEN-bit value. -/
abbrev TrapRegs.Fits (t : TrapRegs) (xl : XLen) : Prop :=
  truncX xl t.mepc = t.mepc ∧ truncX xl t.mcause = t.mcause ∧ truncX xl t.mtval = t.mtval ∧
    truncX xl t.mtvec = t.mtvec

/-- What relates the fields of the state: it is well formed (R35), every vector register has VLEN bits
(R14), every scalar value and `pc` XLEN bits (R10, R13), `x[0]` is 0 (R11), the trap registers fit, and
memory is in canonical form below 2^XLEN (R41). -/
abbrev State.Inv (s : State) : Prop :=
  s.illFormed = none ∧
    (∀ r ∈ s.v.toList, r.length = s.params.vlen) ∧
    (∀ w ∈ s.x.toList, truncX s.params.xlen w = w) ∧
    truncX s.params.xlen s.pc = s.pc ∧
    s.x[0] = 0 ∧
    s.trap.Fits s.params.xlen ∧
    Memory.wf s.mem = true ∧
    ∀ c ∈ s.mem, c.1 < 2 ^ xlenBits s.params.xlen

/-- The state with no trap entry. -/
def State.withoutEntry (s : State) : State :=
  { s with params := { s.params with trapEntry := .absent } }

/-- A safe step (LP7 `no_fault`, kept): it neither faults nor is refused, nor would it fault if no trap
entry were present. DESIGN CHOICE: a step that raises the exception is not safe although a trap entry
continues it (log entry 28). -/
def State.SafeStep (s t : State) : Prop := step s = .next t ∧ ∃ u, step s.withoutEntry = .next u

/-- `t` is reached from `s` in `n` safe steps. -/
def State.Runs : Nat → State → State → Prop
  | 0, s, t => s = t
  | n + 1, s, t => ∃ u, s.SafeStep u ∧ State.Runs n u t

/-- The end of a run (R143): `t` is the final state of the run from `s` over the `n` words at `base`,
"with no fault and no refusal recorded". DESIGN CHOICE: a run that raised the exception has no final
state, whether or not a trap entry continued it (log entry 28). -/
def State.Ends (s t : State) (base n : Nat) : Prop := (∃ k, State.Runs k s t) ∧ t.Finished base n

end Sys2Proof.Machine
end

