-- ==== Sys2Proof/WellFormed.lean ====
section
/-! DEFINITION. Which instructions are well formed: those whose fields alone do not make the encoding
reserved (R61, R62). The checks that need LMUL are made at execution (R63). -/

namespace Sys2Proof

/-- The encoding is not statically reserved (R60, R68). -/
abbrev Instr.WellFormed (i : Instr) : Prop := staticReserved i = none

end Sys2Proof
end

