-- ==== Sys2Proof/Certificates/Slice0/Obligations.lean ====
section
/-! DEFINITION. The statements for the provers, from the spec's numbered rules. Where a docstring says
"decision", the clause rests on a choice the spec marks as its own (92_eei_decisions.md) or on the
model's log entry it names. -/

namespace Sys2Proof.Claims

open Sys2Proof.Machine

/-- What one step of any in-scope instruction leaves alone: parameters, `vl`, `vtype`, the trap
registers, and every byte of the program text. -/
def SameControl (s t : State) : Prop :=
  t.params = s.params ∧ t.vl = s.vl ∧ t.vtype = s.vtype ∧ t.trap = s.trap ∧
    ∀ a, t.mem.read a = s.mem.read a

/-- Every scalar register but those in `written` reads as before. -/
def SameX (s t : State) (written : List RegNum) : Prop :=
  ∀ r, r ∉ written → t.readX r = s.readX r

/-- Every vector register but those in `written` is as before. -/
def SameV (s t : State) (written : RegNum → Prop) : Prop :=
  ∀ n, ¬written n → t.readV n = s.readV n

/-- `pc <- trunc_XLEN(pc + 4)` (R13). -/
def Advanced (s t : State) : Prop := t.pc = truncX s.params.xlen (s.pc + 4)

/-- The registers of the group at `vd`: `max(1, LMUL)` of them (R17). -/
def InGroup (s : State) (vd n : RegNum) : Prop :=
  vd.toNat ≤ n.toNat ∧ n.toNat < vd.toNat + s.vtype.groupSize

/-- Element `i` takes part: unmasked, or `v0.mask[i] = 1` (R29). -/
def Enabled (s : State) (vm : Bool) (i : Nat) : Prop := vm = true ∨ s.maskBit 0 i = true

/-- How many indices below `n` are enabled and have a 1 in `vs2`. -/
noncomputable def setCount (s : State) (vs2 : RegNum) (vm : Bool) (n : Nat) : Nat := by
  classical
  exact ((Finset.range n).filter fun j => Enabled s vm j ∧ s.maskBit vs2 j = true).card

/-- `k` is the lowest index below `vl` that is enabled and has a 1 in `vs2`. -/
def IsFirst (s : State) (vs2 : RegNum) (vm : Bool) (k : Nat) : Prop :=
  k < s.vl ∧ Enabled s vm k ∧ s.maskBit vs2 k = true ∧
    ∀ j < k, ¬(Enabled s vm j ∧ s.maskBit vs2 j = true)

/-- No index below `vl` is enabled and has a 1 in `vs2`. -/
def NoFirst (s : State) (vs2 : RegNum) (vm : Bool) : Prop :=
  ∀ j < s.vl, ¬(Enabled s vm j ∧ s.maskBit vs2 j = true)

/-- The eight mask-register logical instructions. -/
def logicals : List (RegNum → RegNum → RegNum → Bool → Instr) :=
  [.vmandnot, .vmand, .vmor, .vmxor, .vmornot, .vmnand, .vmnor, .vmxnor]

/-- The three set-first instructions. -/
def setFirsts : List (RegNum → RegNum → Bool → Instr) := [.vmsbf, .vmsof, .vmsif]

/-- What R83 and the rule of one logical instruction say: the word; `vm = 0` reserved; `vill = 1`
raises (decision D15); otherwise it completes: prestart unchanged, body `f(vs2 bit, vs1 bit)`, tail a
free draw (decision D9), `vstart` 0, and nothing else written. -/
def LogicalRule (funct6 : BitVec 6) (make : RegNum → RegNum → RegNum → Bool → Instr)
    (f : Bool → Bool → Bool) : Prop :=
  ∀ (vd vs2 vs1 : RegNum) (vm : Bool) (s : State), s.illFormed = none →
    encode (make vd vs2 vs1 vm) =
        funct6 ++ BitVec.ofBool vm ++ vs2 ++ vs1 ++ 0b010#3 ++ vd ++ 0b1010111#7 ∧
      (vm = false →
        exec (make vd vs2 vs1 vm) s =
          reservedOutcome .logicalMasked (encode (make vd vs2 vs1 vm)) s) ∧
      (vm = true → s.vtype.vill = true →
        exec (make vd vs2 vs1 vm) s = raiseIllegal (encode (make vd vs2 vs1 vm)) s) ∧
      (vm = true → s.params.vectorEnabled = true → s.vtype.vill = false →
        ∃ t, exec (make vd vs2 vs1 vm) s = .next t ∧
          (∀ i < s.params.vlen,
            t.maskBit vd i =
              if i < s.vstart then s.maskBit vd i
              else if i < s.vl then f (s.maskBit vs2 i) (s.maskBit vs1 i)
              else Config.freeBit s.draws i) ∧
          t.vstart = 0 ∧ Advanced s t ∧ SameV s t (· = vd) ∧ SameX s t [] ∧ SameControl s t)

/-- What R103 and the rule of one set-first instruction say: the word; the two overlaps
reserved (decision D13); `vill = 1` (decision D15) and `vstart != 0` raise; otherwise it completes: an
active element `i` gets 1 exactly when `g i k` for the first set active element `k`, and `none'` where
there is none; inactive elements follow `vma` (decision D10); tail a free draw (decision D9); nothing else written. -/
def SetFirstRule (subOp : RegNum) (make : RegNum → RegNum → Bool → Instr) (g : Nat → Nat → Prop)
    (none' : Bool) : Prop :=
  ∀ (vd vs2 : RegNum) (vm : Bool) (s : State), s.illFormed = none →
    encode (make vd vs2 vm) =
        0b010100#6 ++ BitVec.ofBool vm ++ vs2 ++ subOp ++ 0b010#3 ++ vd ++ 0b1010111#7 ∧
      (vd = vs2 →
        exec (make vd vs2 vm) s =
          reservedOutcome .destOverlapsSource (encode (make vd vs2 vm)) s) ∧
      (vd ≠ vs2 → vm = false → vd = 0 →
        exec (make vd vs2 vm) s =
          reservedOutcome .maskedDestOverlapsV0 (encode (make vd vs2 vm)) s) ∧
      (vd ≠ vs2 → (vm = true ∨ vd ≠ 0) → (s.vtype.vill = true ∨ s.vstart ≠ 0) →
        exec (make vd vs2 vm) s = raiseIllegal (encode (make vd vs2 vm)) s) ∧
      (vd ≠ vs2 → (vm = true ∨ vd ≠ 0) → s.params.vectorEnabled = true → s.vtype.vill = false →
        s.vstart = 0 →
        ∃ t, exec (make vd vs2 vm) s = .next t ∧
          (∀ i < s.vl, Enabled s vm i →
            (∀ k, IsFirst s vs2 vm k → (t.maskBit vd i = true ↔ g i k)) ∧
              (NoFirst s vs2 vm → t.maskBit vd i = none')) ∧
          (∀ i < s.vl, ¬Enabled s vm i →
            t.maskBit vd i =
              if s.vtype.vma = true then Config.freeBit s.draws i else s.maskBit vd i) ∧
          (∀ i < s.params.vlen, s.vl ≤ i → t.maskBit vd i = Config.freeBit s.draws i) ∧
          t.vstart = 0 ∧ Advanced s t ∧ SameV s t (· = vd) ∧ SameX s t [] ∧ SameControl s t)

/-- The elements of a destination group after `viota.m` or `vid.v`: prestart unchanged; active
`trunc_SEW(value i)`; inactive by `vma` and tail by `vta`, unchanged or a free draw. -/
def GroupHolds (s t : State) (vd : RegNum) (vm : Bool) (value : Nat → Nat) : Prop :=
  ∀ i < s.groupElements,
    (i < s.vstart → t.elt vd i = s.elt vd i) ∧
      (s.vstart ≤ i → i < s.vl → Enabled s vm i → t.elt vd i = value i % 2 ^ s.vtype.sew) ∧
      (s.vstart ≤ i → i < s.vl → ¬Enabled s vm i → s.vtype.vma = false →
        t.elt vd i = s.elt vd i) ∧
      (s.vstart ≤ i → i < s.vl → ¬Enabled s vm i → s.vtype.vma = true → ∀ b < s.vtype.sew,
        (t.elt vd i).testBit b = Config.freeBit s.draws (i * s.vtype.sew + b)) ∧
      (s.vstart ≤ i → s.vl ≤ i → s.vtype.vta = false → t.elt vd i = s.elt vd i) ∧
      (s.vstart ≤ i → s.vl ≤ i → s.vtype.vta = true → ∀ b < s.vtype.sew,
        (t.elt vd i).testBit b = Config.freeBit s.draws (i * s.vtype.sew + b))

/-- The destination group at `vd` is aligned to LMUL (R63). -/
def GroupAligned (s : State) (vd : RegNum) : Prop := vd.toNat % s.vtype.groupSize = 0

/-- What a next state of an instruction can be: the trap entry of the exception it raised, or the effect
described. -/
def TrapOr (i : Instr) (s t : State) (effect : Prop) : Prop :=
  raiseIllegal (encode i) s = .next t ∨ effect

/-- The sixteen rows of R85: the output at (src1, src2) = (0,0), (0,1), (1,0), (1,1), and the
instruction, its operands in assembler order `vd, vs2, vs1`. -/
def sixteenFunctions : List ((Bool × Bool × Bool × Bool) × (RegNum → RegNum → RegNum → Instr)) :=
  [((false, false, false, false), fun vd _ _ => .vmxor vd vd vd true),
   ((true, false, false, false), fun vd src1 src2 => .vmnor vd src1 src2 true),
   ((false, true, false, false), fun vd src1 src2 => .vmandnot vd src2 src1 true),
   ((true, true, false, false), fun vd src1 _ => .vmnand vd src1 src1 true),
   ((false, false, true, false), fun vd src1 src2 => .vmandnot vd src1 src2 true),
   ((true, false, true, false), fun vd _ src2 => .vmnand vd src2 src2 true),
   ((false, true, true, false), fun vd src1 src2 => .vmxor vd src1 src2 true),
   ((true, true, true, false), fun vd src1 src2 => .vmnand vd src1 src2 true),
   ((false, false, false, true), fun vd src1 src2 => .vmand vd src1 src2 true),
   ((true, false, false, true), fun vd src1 src2 => .vmxnor vd src1 src2 true),
   ((false, true, false, true), fun vd _ src2 => .vmand vd src2 src2 true),
   ((true, true, false, true), fun vd src1 src2 => .vmornot vd src2 src1 true),
   ((false, false, true, true), fun vd src1 _ => .vmand vd src1 src1 true),
   ((true, false, true, true), fun vd src1 src2 => .vmornot vd src1 src2 true),
   ((false, true, true, true), fun vd src1 src2 => .vmor vd src1 src2 true),
   ((true, true, true, true), fun vd _ _ => .vmxnor vd vd vd true)]

/-- The output of a row at one pair of input bits. -/
def rowOutput (row : Bool × Bool × Bool × Bool) (src1 src2 : Bool) : Bool :=
  match src1, src2 with
  | false, false => row.1
  | false, true => row.2.1
  | true, false => row.2.2.1
  | true, true => row.2.2.2

/-- The rows of the opcode map (R55 to R57): match, mask, and the instruction from the fields
`vd`, `vs2`, `vs1`, `vm`. -/
def opcodeMap : List (InsnWord × InsnWord × (RegNum → RegNum → RegNum → Bool → Instr)) :=
  [(0x60002057, 0xFC00707F, .vmandnot),
   (0x64002057, 0xFC00707F, .vmand),
   (0x68002057, 0xFC00707F, .vmor),
   (0x6C002057, 0xFC00707F, .vmxor),
   (0x70002057, 0xFC00707F, .vmornot),
   (0x74002057, 0xFC00707F, .vmnand),
   (0x78002057, 0xFC00707F, .vmnor),
   (0x7C002057, 0xFC00707F, .vmxnor),
   (0x40082057, 0xFC0FF07F, fun d vs2 _ vm => .vpopc d vs2 vm),
   (0x4008A057, 0xFC0FF07F, fun d vs2 _ vm => .vfirst d vs2 vm),
   (0x5000A057, 0xFC0FF07F, fun d vs2 _ vm => .vmsbf d vs2 vm),
   (0x50012057, 0xFC0FF07F, fun d vs2 _ vm => .vmsof d vs2 vm),
   (0x5001A057, 0xFC0FF07F, fun d vs2 _ vm => .vmsif d vs2 vm),
   (0x50082057, 0xFC0FF07F, fun d vs2 _ vm => .viota d vs2 vm),
   (0x5008A057, 0xFC0FF07F, fun d vs2 _ vm => .vid d vs2 vm)]

end Sys2Proof.Claims

open Sys2Proof Sys2Proof.Machine Sys2Proof.Claims

/-! ### Mask-register logical instructions -/

/-- R70, R83. -/
def Obligations.VmandWritesAnd : Prop := LogicalRule 0b011001 .vmand fun a b => a && b

/-- R71, R83. -/
def Obligations.VmnandWritesComplementOfAnd : Prop :=
  LogicalRule 0b011101 .vmnand fun a b => !(a && b)

/-- R72, R83: the complemented operand is `vs1`. -/
def Obligations.VmandnotComplementsVs1 : Prop :=
  LogicalRule 0b011000 .vmandnot fun a b => a && !b

/-- R73, R83. -/
def Obligations.VmxorWritesExclusiveOr : Prop := LogicalRule 0b011011 .vmxor fun a b => a ^^ b

/-- R74, R83. -/
def Obligations.VmorWritesOr : Prop := LogicalRule 0b011010 .vmor fun a b => a || b

/-- R75, R83. -/
def Obligations.VmnorWritesComplementOfOr : Prop := LogicalRule 0b011110 .vmnor fun a b => !(a || b)

/-- R76, R83: the complemented operand is `vs1`. -/
def Obligations.VmornotComplementsVs1 : Prop := LogicalRule 0b011100 .vmornot fun a b => a || !b

/-- R77, R83. -/
def Obligations.VmxnorWritesComplementOfXor : Prop :=
  LogicalRule 0b011111 .vmxnor fun a b => !(a ^^ b)

/-- R85 (its OR row restored by the spec from R74, C1): each row's instruction computes its row's
function on the body, for any operands (for the rows that name `vd` as a source, of `vd`'s old
value). -/
def Obligations.EightLogicalsGiveSixteenFunctions : Prop :=
  (∀ f : Bool → Bool → Bool, ∃ row ∈ sixteenFunctions, ∀ a b, rowOutput row.1 a b = f a b) ∧
    ∀ row ∈ sixteenFunctions, ∀ (vd src1 src2 : RegNum) (s : State), s.Ready →
      ∃ t, exec (row.2 vd src1 src2) s = .next t ∧
        ∀ i, s.vstart ≤ i → i < s.vl →
          t.maskBit vd i = rowOutput row.1 (s.maskBit src1 i) (s.maskBit src2 i)

/-- R78 to R82: what each pseudoinstruction expands to, and the body of its destination after it. -/
def Obligations.PseudoinstructionsAct : Prop :=
  (∀ vd vs : RegNum, (Pseudo.vmmv vd vs).expand = .vmand vd vs vs true ∧
      (Pseudo.vmcpy vd vs).expand = .vmand vd vs vs true ∧
      (Pseudo.vmclr vd).expand = .vmxor vd vd vd true ∧
      (Pseudo.vmset vd).expand = .vmxnor vd vd vd true ∧
      (Pseudo.vmnot vd vs).expand = .vmnand vd vs vs true) ∧
    ∀ (vd vs : RegNum) (s : State), s.Ready → ∀ i, s.vstart ≤ i → i < s.vl →
    (∃ t, exec (Pseudo.vmmv vd vs).expand s = .next t ∧ t.maskBit vd i = s.maskBit vs i) ∧
      (∃ t, exec (Pseudo.vmcpy vd vs).expand s = .next t ∧ t.maskBit vd i = s.maskBit vs i) ∧
      (∃ t, exec (Pseudo.vmclr vd).expand s = .next t ∧ t.maskBit vd i = false) ∧
      (∃ t, exec (Pseudo.vmset vd).expand s = .next t ∧ t.maskBit vd i = true) ∧
      ∃ t, exec (Pseudo.vmnot vd vs).expand s = .next t ∧ t.maskBit vd i = !s.maskBit vs i

/-- R84 (6): two ready states that differ only in `vtype` leave the same vector registers: below `vl`
by the spec; the tail elements of `vd` because both runs take the same draw at the same positions, the
model's choice (log entry 6). R30 lets a claim speak of the elements below `vl` only. -/
def Obligations.LogicalsIgnoreSewAndLmul : Prop :=
  ∀ make ∈ logicals, ∀ (vd vs2 vs1 : RegNum) (s : State) (vt : VType),
    s.Ready → State.Ready { s with vtype := vt } →
    ∃ t u, exec (make vd vs2 vs1 true) s = .next t ∧
      exec (make vd vs2 vs1 true) { s with vtype := vt } = .next u ∧ u.v = t.v ∧ u.vtype = vt

/-! ### Scalar results -/

/-- R90: every `rd`, `vs2`, `vm` is legal; `vill = 1` (decision D15) and `vstart != 0` raise; otherwise
`x[rd]` is the count, discarded for `x0` (decision D26), and nothing else is written. -/
def Obligations.VpopcCountsActiveSetElements : Prop :=
  ∀ (rd vs2 : RegNum) (vm : Bool) (s : State), s.illFormed = none →
    encode (.vpopc rd vs2 vm) =
        0b010000#6 ++ BitVec.ofBool vm ++ vs2 ++ 0b10000#5 ++ 0b010#3 ++ rd ++ 0b1010111#7 ∧
      ((s.vtype.vill = true ∨ s.vstart ≠ 0) →
        exec (.vpopc rd vs2 vm) s = raiseIllegal (encode (.vpopc rd vs2 vm)) s) ∧
      (s.params.vectorEnabled = true → s.vtype.vill = false → s.vstart = 0 →
        ∃ t, exec (.vpopc rd vs2 vm) s = .next t ∧
          (t.readX rd).toNat = (if rd = 0 then 0 else setCount s vs2 vm s.vl) ∧
          t.vstart = 0 ∧ Advanced s t ∧ SameX s t [rd] ∧ SameV s t (fun _ => False) ∧
          SameControl s t)

/-- R95: as R90, with the lowest index found, or -1: an XLEN-bit value of all ones. -/
def Obligations.VfirstFindsLowestOrMinusOne : Prop :=
  ∀ (rd vs2 : RegNum) (vm : Bool) (s : State), s.illFormed = none →
    encode (.vfirst rd vs2 vm) =
        0b010000#6 ++ BitVec.ofBool vm ++ vs2 ++ 0b10001#5 ++ 0b010#3 ++ rd ++ 0b1010111#7 ∧
      ((s.vtype.vill = true ∨ s.vstart ≠ 0) →
        exec (.vfirst rd vs2 vm) s = raiseIllegal (encode (.vfirst rd vs2 vm)) s) ∧
      (s.params.vectorEnabled = true → s.vtype.vill = false → s.vstart = 0 →
        ∃ t, exec (.vfirst rd vs2 vm) s = .next t ∧
          (rd = 0 → t.readX rd = 0) ∧
          (rd ≠ 0 → ∀ k, IsFirst s vs2 vm k → (t.readX rd).toNat = k) ∧
          (rd ≠ 0 → NoFirst s vs2 vm → (t.readX rd).toNat = 2 ^ xlenBits s.params.xlen - 1) ∧
          t.vstart = 0 ∧ Advanced s t ∧ SameX s t [rd] ∧ SameV s t (fun _ => False) ∧
          SameControl s t)

/-- R5: `vl <= VLEN <= 2^(XLEN-1)`, so a count fits in XLEN-1 bits, and a `vfirst.m` result with its
highest bit set is -1 and says that no active element is 1. -/
def Obligations.NegativeResultMeansNoneFound : Prop :=
  ∀ s : State, s.Ready →
    s.vl ≤ s.params.vlen ∧ s.params.vlen ≤ 2 ^ (xlenBits s.params.xlen - 1) ∧
      ∀ (rd vs2 : RegNum) (vm : Bool), s.vstart = 0 → rd ≠ 0 →
        ∃ t u, exec (.vpopc rd vs2 vm) s = .next t ∧ exec (.vfirst rd vs2 vm) s = .next u ∧
          (t.readX rd).toNat < 2 ^ (xlenBits s.params.xlen - 1) ∧
          ((u.readX rd).getLsbD (xlenBits s.params.xlen - 1) = true ↔ NoFirst s vs2 vm) ∧
          ((u.readX rd).getLsbD (xlenBits s.params.xlen - 1) = true ↔
            u.readX rd = truncX s.params.xlen (BitVec.allOnes 64))

/-- R11 (decision D26): with `rd = 0` all checks are made and only `pc` changes. -/
def Obligations.ScalarResultToX0IsDiscarded : Prop :=
  ∀ (vs2 : RegNum) (vm : Bool) (s : State), s.Ready →
    (s.vstart = 0 →
      exec (.vpopc 0 vs2 vm) s = .next { s with pc := truncX s.params.xlen (s.pc + 4) } ∧
        exec (.vfirst 0 vs2 vm) s = .next { s with pc := truncX s.params.xlen (s.pc + 4) }) ∧
      (s.vstart ≠ 0 →
        exec (.vpopc 0 vs2 vm) s = raiseIllegal (encode (.vpopc 0 vs2 vm)) s ∧
          exec (.vfirst 0 vs2 vm) s = raiseIllegal (encode (.vfirst 0 vs2 vm)) s)

/-- R91 (2), R96 (3), R29: tail elements of the source and of `v0` do not reach the result, nor do
inactive elements: two states equal but for the vector registers, whose `v0` (if masked) and active
`vs2` elements agree below `vl`, get the same `x` registers. -/
def Obligations.ScalarResultsReadOnlyActiveBody : Prop :=
  ∀ make ∈ ([.vpopc, .vfirst] : List (RegNum → RegNum → Bool → Instr)),
    ∀ (rd vs2 : RegNum) (vm : Bool) (s : State) (v : Vector VReg 32),
      s.Ready → s.vstart = 0 →
      (∀ i < s.vl, vm = true ∨ State.maskBit { s with v := v } 0 i = s.maskBit 0 i) →
      (∀ i < s.vl, Enabled s vm i → State.maskBit { s with v := v } vs2 i = s.maskBit vs2 i) →
      ∃ t u, exec (make rd vs2 vm) s = .next t ∧
        exec (make rd vs2 vm) { s with v := v } = .next u ∧ u.x = t.x

/-! ### Set-first instructions -/

/-- R100, R103. -/
def Obligations.VmsbfSetsBeforeFirst : Prop := SetFirstRule 0b00001 .vmsbf (fun i k => i < k) true

/-- R101, R103. -/
def Obligations.VmsifSetsIncludingFirst : Prop :=
  SetFirstRule 0b00011 .vmsif (fun i k => i ≤ k) true

/-- R102, R103. -/
def Obligations.VmsofSetsOnlyFirst : Prop := SetFirstRule 0b00010 .vmsof (fun i k => i = k) false

/-- R106: on the active elements of one source and mask, `vmsif` is `vmsbf` or `vmsof`, `vmsof` is
`vmsif` and not `vmsbf`, and `vmsbf` and `vmsof` never meet. -/
def Obligations.SetFirstResultsRelate : Prop :=
  ∀ (vd vs2 : RegNum) (vm : Bool) (s : State), s.Ready → s.vstart = 0 → vd ≠ vs2 →
    (vm = true ∨ vd ≠ 0) →
    ∃ b i o, exec (.vmsbf vd vs2 vm) s = .next b ∧ exec (.vmsif vd vs2 vm) s = .next i ∧
      exec (.vmsof vd vs2 vm) s = .next o ∧
      ∀ k < s.vl, Enabled s vm k →
        i.maskBit vd k = (b.maskBit vd k || o.maskBit vd k) ∧
          o.maskBit vd k = (i.maskBit vd k && !b.maskBit vd k) ∧
          (b.maskBit vd k && o.maskBit vd k) = false

/-- R96 (9), R106: unmasked, counting the bits `vmsbf.m` leaves gives the index `vfirst.m` finds when
there is one, and `vl` when there is none. -/
def Obligations.PopcOfVmsbfIsVfirst : Prop :=
  ∀ (rd vd vs2 : RegNum) (s : State), s.Ready → s.vstart = 0 → vd ≠ vs2 → rd ≠ 0 →
    ∃ t u w, exec (.vmsbf vd vs2 true) s = .next t ∧ exec (.vpopc rd vd true) t = .next u ∧
      exec (.vfirst rd vs2 true) s = .next w ∧
      (¬NoFirst s vs2 true → u.readX rd = w.readX rd) ∧
      (NoFirst s vs2 true → (u.readX rd).toNat = s.vl)

/-! ### Element results -/

/-- R110: the word; the checks in their order (overlaps, D13; `vill`, D15; alignment, D14); otherwise it
completes: active element `i` gets the number of enabled set elements of `vs2` below `i`, truncated to
SEW bits; the rest of the group as R31 and R32 say (decisions D10, D11); nothing else written. -/
def Obligations.ViotaWritesPrefixCounts : Prop :=
  ∀ (vd vs2 : RegNum) (vm : Bool) (s : State), s.illFormed = none →
    let i := Instr.viota vd vs2 vm
    let static := vd = vs2 ∨ (vm = false ∧ vd = 0)
    encode i =
        0b010100#6 ++ BitVec.ofBool vm ++ vs2 ++ 0b10000#5 ++ 0b010#3 ++ vd ++ 0b1010111#7 ∧
      (vd = vs2 → exec i s = reservedOutcome .destOverlapsSource (encode i) s) ∧
      (vd ≠ vs2 → vm = false → vd = 0 →
        exec i s = reservedOutcome .maskedDestOverlapsV0 (encode i) s) ∧
      (¬static → s.vtype.vill = true → exec i s = raiseIllegal (encode i) s) ∧
      (¬static → s.params.vectorEnabled = true → s.vtype.vill = false → ¬GroupAligned s vd →
        exec i s = reservedOutcome .groupMisaligned (encode i) s) ∧
      (¬static → s.params.vectorEnabled = true → s.vtype.vill = false → GroupAligned s vd →
        InGroup s vd vs2 → exec i s = reservedOutcome .groupOverlapsSource (encode i) s) ∧
      (¬static → s.params.vectorEnabled = true → s.vtype.vill = false → GroupAligned s vd →
        ¬InGroup s vd vs2 → s.vstart ≠ 0 → exec i s = raiseIllegal (encode i) s) ∧
      (¬static → s.params.vectorEnabled = true → s.vtype.vill = false → GroupAligned s vd →
        ¬InGroup s vd vs2 → s.vstart = 0 →
        ∃ t, exec i s = .next t ∧ GroupHolds s t vd vm (setCount s vs2 vm) ∧ t.vstart = 0 ∧
          Advanced s t ∧ SameV s t (InGroup s vd) ∧ SameX s t [] ∧ SameControl s t)

/-- R115: the word; the checks in their order (`vill`, D15; masked `v0`, D13; alignment, D14);
otherwise it completes from any `vstart` (decision D30): active element `i` gets `i` truncated to SEW
bits; the rest of the group as R28, R31 and R32 say; `vstart` becomes 0; nothing else written. -/
def Obligations.VidWritesElementIndices : Prop :=
  ∀ (vd vs2 : RegNum) (vm : Bool) (s : State), s.illFormed = none →
    let i := Instr.vid vd vs2 vm
    let static := vs2 ≠ 0 ∨ (vm = false ∧ vd = 0)
    encode i =
        0b010100#6 ++ BitVec.ofBool vm ++ vs2 ++ 0b10001#5 ++ 0b010#3 ++ vd ++ 0b1010111#7 ∧
      (vs2 ≠ 0 → exec i s = reservedOutcome .vidSourceField (encode i) s) ∧
      (vs2 = 0 → vm = false → vd = 0 →
        exec i s = reservedOutcome .maskedDestOverlapsV0 (encode i) s) ∧
      (¬static → s.vtype.vill = true → exec i s = raiseIllegal (encode i) s) ∧
      (¬static → s.params.vectorEnabled = true → s.vtype.vill = false → ¬GroupAligned s vd →
        exec i s = reservedOutcome .groupMisaligned (encode i) s) ∧
      (¬static → s.params.vectorEnabled = true → s.vtype.vill = false → GroupAligned s vd →
        ∃ t, exec i s = .next t ∧ GroupHolds s t vd vm (fun k => k) ∧ t.vstart = 0 ∧
          Advanced s t ∧ SameV s t (InGroup s vd) ∧ SameX s t [] ∧ SameControl s t)

/-- R113: unmasked, each element of `viota.m` plus its own source bit is the next element, before
truncation to SEW, and the last one plus its bit is the `vpopc.m` result. -/
def Obligations.ViotaStepsToVpopc : Prop :=
  ∀ (vd rd vs2 : RegNum) (s : State), s.Ready → s.vstart = 0 → vd ≠ vs2 → GroupAligned s vd →
    ¬InGroup s vd vs2 → rd ≠ 0 →
    ∃ t u, exec (.viota vd vs2 true) s = .next t ∧ exec (.vpopc rd vs2 true) s = .next u ∧
      (∀ i, i + 1 < s.vl →
        t.elt vd (i + 1) = (t.elt vd i + (s.maskBit vs2 i).toNat) % 2 ^ s.vtype.sew) ∧
      ∀ i, i + 1 = s.vl →
        (t.elt vd i + (s.maskBit vs2 i).toNat) % 2 ^ s.vtype.sew =
          (u.readX rd).toNat % 2 ^ s.vtype.sew

/-- R116 (8): unmasked, `vid.v` leaves what `viota.m` leaves on a source of all ones: below `vl`, and in
the tail at `vta = 0`, by the spec; in the tail at `vta = 1` because both take the same draw at the same
positions, the model's choice (log entry 6). -/
def Obligations.VidIsViotaOfAllOnes : Prop :=
  ∀ (vd vs2 : RegNum) (s : State), s.Ready → s.vstart = 0 → vd ≠ vs2 → GroupAligned s vd →
    ¬InGroup s vd vs2 → (∀ i < s.vl, s.maskBit vs2 i = true) →
    ∃ t, exec (.vid vd 0 true) s = .next t ∧ exec (.viota vd vs2 true) s = .next t

/-! ### State and operands -/

/-- R17: bit `b` of element `i` of a group is the mask element of its register at bit
`(i*SEW mod VLEN) + b`, for every register of the machine. -/
def Obligations.ElementAndMaskViewsAlias : Prop :=
  ∀ (n m : RegNum) (i b : Nat) (s : State), s.illFormed = none → s.vtype.vill = false →
    b < s.vtype.sew → m.toNat = n.toNat + i * s.vtype.sew / s.params.vlen →
    (s.elt n i).testBit b = s.maskBit m (i * s.vtype.sew % s.params.vlen + b)

/-- R24: SEW, LMUL and VLMAX of a legal configuration; a mask always fits one register. -/
def Obligations.DerivedQuantitiesOfLegalVtype : Prop :=
  ∀ (p : Params) (t : VType), paramsOk p = true → t.legal p = true →
    (t.lmulNum : ℚ) / t.lmulDen = (2 : ℚ) ^ t.vlmul.toInt ∧
      ((t.vlmax p.vlen : Nat) : ℚ) = (t.lmulNum : ℚ) / t.lmulDen * p.vlen / t.sew ∧
      1 ≤ t.vlmax p.vlen ∧ t.vlmax p.vlen ≤ p.vlen ∧
      (t.groupSize : ℚ) = max 1 ((t.lmulNum : ℚ) / t.lmulDen)

/-- R20, R21, R22, R23, R25: the words software reads, every bit of them, and what a write keeps
(decision D7; log entry 22). -/
def Obligations.CsrViewsFollowTheirLayout : Prop :=
  ∀ (s : State) (w : XWord), s.illFormed = none →
    s.readCsr 0x008 = some (BitVec.ofNat 64 s.vstart) ∧
      s.readCsr 0xC20 = some (BitVec.ofNat 64 s.vl) ∧
      s.readCsr 0xC22 = some (BitVec.ofNat 64 (s.params.vlen / 8)) ∧
      (∃ u, s.readCsr 0xC21 = some u ∧
        u.getLsbD (xlenBits s.params.xlen - 1) = s.vtype.vill ∧
        (s.vtype.vill = true → ∀ k, k ≠ xlenBits s.params.xlen - 1 → u.getLsbD k = false) ∧
        (∀ k, 8 ≤ k → k ≠ xlenBits s.params.xlen - 1 → u.getLsbD k = false) ∧
        (s.vtype.vill = false →
          u.getLsbD 7 = s.vtype.vma ∧ u.getLsbD 6 = s.vtype.vta ∧
            u.extractLsb' 3 3 = s.vtype.vsew ∧ u.extractLsb' 0 3 = s.vtype.vlmul)) ∧
      s.writeCsr 0xC20 w = none ∧ s.writeCsr 0xC21 w = none ∧ s.writeCsr 0xC22 w = none ∧
      ∃ t, s.writeCsr 0x008 w = some t ∧ t.illFormed = none ∧
        BitVec.ofNat 64 t.vstart = w &&& BitVec.ofNat 64 (s.params.vlen - 1)

/-- R13 (decision D19): an instruction that completes advances `pc` by 4 modulo 2^XLEN. -/
def Obligations.PcAdvancesModuloXlen : Prop :=
  ∀ (i : Instr) (s t : State), exec i s = .next t → s.params.trapEntry = .absent →
    t.pc.toNat = (s.pc.toNat + 4) % 2 ^ xlenBits s.params.xlen

/-- R12: only `vpopc.m` and `vfirst.m` write an `x` register, and only `x[rd]`; no instruction reads
one; and `x[rd]` is written even if `vl` is 0. What the platform's own trap entry does to the `x`
registers, when one is present and the instruction raised, is not the instruction's access. -/
def Obligations.OnlyScalarResultsWriteX : Prop :=
  (∀ (i : Instr) (s t : State), exec i s = .next t →
      ∀ r, t.readX r ≠ s.readX r →
        (∃ vs2 vm, i = .vpopc r vs2 vm ∨ i = .vfirst r vs2 vm) ∨
          (s.params.trapEntry = .platform ∧ raiseIllegal (encode i) s = .next t)) ∧
    (∀ (i : Instr) (s : State) (x : Vector XWord 32),
      (∀ t, exec i s = .next t →
          (∃ u, exec i { s with x := x } = .next u ∧ { u with x := t.x } = t ∧
              ∀ r, t.readX r ≠ s.readX r → u.readX r = t.readX r) ∨
            (s.params.trapEntry = .platform ∧ raiseIllegal (encode i) s = .next t ∧
              exec i { s with x := x } = raiseIllegal (encode i) { s with x := x })) ∧
        (∀ f, exec i s = .fault f → exec i { s with x := x } = .fault f) ∧
        ∀ f, exec i s = .refused f → exec i { s with x := x } = .refused f) ∧
    ∀ (rd vs2 : RegNum) (vm : Bool) (s : State), s.Ready → s.vstart = 0 → s.vl = 0 → rd ≠ 0 →
      ∃ t u, exec (.vpopc rd vs2 vm) s = .next t ∧ exec (.vfirst rd vs2 vm) s = .next u ∧
        t.readX rd = 0 ∧ u.readX rd = truncX s.params.xlen (BitVec.allOnes 64)

/-- R26, R20, R21, R22: no instruction writes `vl` or `vtype`, and none leaves a new non-zero
`vstart`. -/
def Obligations.NoInstructionWritesVlOrVtype : Prop :=
  ∀ (i : Instr) (s t : State), exec i s = .next t →
    t.vl = s.vl ∧ t.vtype = s.vtype ∧ (t.vstart = s.vstart ∨ t.vstart = 0)

/-- R40, R42: no step writes the program text or the parameters. -/
def Obligations.NoStepWritesProgram : Prop :=
  ∀ s t : State, step s = .next t → (∀ a, t.mem.read a = s.mem.read a) ∧ t.params = s.params

/-! ### Frames -/

/-- Of the eight logical instructions: but for the trap entry of a raised exception, only `v[vd]`,
`vstart`, `pc` change. -/
def Obligations.LogicalFrame : Prop :=
  ∀ make ∈ logicals, ∀ (vd vs2 vs1 : RegNum) (vm : Bool) (s t : State),
    exec (make vd vs2 vs1 vm) s = .next t →
    TrapOr (make vd vs2 vs1 vm) s t
      (SameV s t (· = vd) ∧ SameX s t [] ∧ t.vstart = 0 ∧ SameControl s t)

/-- Of `vpopc.m` and `vfirst.m`: but for the trap entry, only `x[rd]`, `pc` change. -/
def Obligations.ScalarResultFrame : Prop :=
  ∀ make ∈ ([.vpopc, .vfirst] : List (RegNum → RegNum → Bool → Instr)),
    ∀ (rd vs2 : RegNum) (vm : Bool) (s t : State), exec (make rd vs2 vm) s = .next t →
    TrapOr (make rd vs2 vm) s t
      (SameV s t (fun _ => False) ∧ SameX s t [rd] ∧ t.readX 0 = 0 ∧ t.vstart = s.vstart ∧
        SameControl s t)

/-- Of the set-first instructions: but for the trap entry, only `v[vd]`, `pc` change. -/
def Obligations.SetFirstFrame : Prop :=
  ∀ make ∈ setFirsts, ∀ (vd vs2 : RegNum) (vm : Bool) (s t : State),
    exec (make vd vs2 vm) s = .next t →
    TrapOr (make vd vs2 vm) s t
      (SameV s t (· = vd) ∧ SameX s t [] ∧ t.vstart = s.vstart ∧ SameControl s t)

/-- Of `viota.m` and `vid.v`: but for the trap entry, only the group at `vd`, `pc`, and `vid.v`'s
`vstart` change. -/
def Obligations.ElementResultFrame : Prop :=
  ∀ (vd vs2 : RegNum) (vm : Bool) (s t : State),
    (exec (.viota vd vs2 vm) s = .next t →
      TrapOr (.viota vd vs2 vm) s t
        (SameV s t (InGroup s vd) ∧ SameX s t [] ∧ t.vstart = s.vstart ∧ SameControl s t)) ∧
      (exec (.vid vd vs2 vm) s = .next t →
        TrapOr (.vid vd vs2 vm) s t
          (SameV s t (InGroup s vd) ∧ SameX s t [] ∧ t.vstart = 0 ∧ SameControl s t))

/-! ### Reserved encodings and the exception -/

/-- R60, R68: a statically reserved encoding does what `reserved_behaviour` says, and is never executed
as if it were legal. -/
def Obligations.ReservedBehaviourDecides : Prop :=
  ∀ (i : Instr) (why : ReservedReason) (s : State), s.illFormed = none →
    staticReserved i = some why →
    (s.params.reservedBehaviour = .refuse → exec i s = .refused (.reserved why (encode i))) ∧
      (s.params.reservedBehaviour = .illegalInstruction → exec i s = raiseIllegal (encode i) s)

/-- R61: the reserved encodings the source names. -/
def Obligations.SourceNamedReservedEncodings : Prop :=
  (∀ make ∈ logicals, ∀ vd vs2 vs1 : RegNum,
      staticReserved (make vd vs2 vs1 false) = some .logicalMasked) ∧
    ∀ (vd vs2 : RegNum) (vm : Bool), vs2 ≠ 0 → staticReserved (.vid vd vs2 vm) = some .vidSourceField

/-- R62 (decision D13): exactly which overlaps are reserved; the logical instructions and the scalar
results have none. For `viota.m`, in a ready state with an aligned group: reserved when the group holds
`vs2` or, masked, is at `v0`; and no such encoding otherwise, where it completes, or raises for its
`vstart`. -/
def Obligations.OverlapIsReserved : Prop :=
  (∀ make ∈ setFirsts, ∀ (vd vs2 : RegNum) (vm : Bool),
      staticReserved (make vd vs2 vm) ≠ none ↔ vd = vs2 ∨ (vm = false ∧ vd = 0)) ∧
    (∀ vd vs2 vs1 : RegNum, ∀ make ∈ logicals, staticReserved (make vd vs2 vs1 true) = none) ∧
    (∀ (rd vs2 : RegNum) (vm : Bool),
      staticReserved (.vpopc rd vs2 vm) = none ∧ staticReserved (.vfirst rd vs2 vm) = none) ∧
    (∀ (vd : RegNum) (vm : Bool), staticReserved (.vid vd 0 vm) ≠ none ↔ vm = false ∧ vd = 0) ∧
    ∀ (vd vs2 : RegNum) (vm : Bool) (s : State), s.Ready → GroupAligned s vd →
      ((InGroup s vd vs2 ∨ (vm = false ∧ vd = 0)) →
          ∃ why, exec (.viota vd vs2 vm) s = reservedOutcome why (encode (.viota vd vs2 vm)) s) ∧
        (¬InGroup s vd vs2 → (vm = true ∨ vd ≠ 0) →
          staticReserved (.viota vd vs2 vm) = none ∧ s.reservedIota vd vs2 = none ∧
            (s.vstart = 0 → ∃ t, exec (.viota vd vs2 vm) s = .next t) ∧
            (s.vstart ≠ 0 →
              exec (.viota vd vs2 vm) s = raiseIllegal (encode (.viota vd vs2 vm)) s))

/-- R63 (decision D14): with `LMUL > 1` a destination group that is not aligned is reserved. -/
def Obligations.MisalignedGroupIsReserved : Prop :=
  ∀ (vd vs2 : RegNum) (vm : Bool) (s : State), s.Ready → ¬GroupAligned s vd →
    1 < s.vtype.groupSize ∧
      (staticReserved (.viota vd vs2 vm) = none →
        exec (.viota vd vs2 vm) s =
          reservedOutcome .groupMisaligned (encode (.viota vd vs2 vm)) s) ∧
      (staticReserved (.vid vd vs2 vm) = none →
        exec (.vid vd vs2 vm) s = reservedOutcome .groupMisaligned (encode (.vid vd vs2 vm)) s)

/-- R27 (decision D15), R131: with `vill = 1`, or the vector unit off, every instruction that is not
statically reserved raises the exception. -/
def Obligations.VillOrDisabledUnitRaises : Prop :=
  ∀ (i : Instr) (s : State), s.illFormed = none → i.WellFormed →
    (s.vtype.vill = true ∨ s.params.vectorEnabled = false) →
    exec i s = raiseIllegal (encode i) s

/-- R122: a non-zero `vstart` raises the exception in the six instructions and is no cause in the
other nine. -/
def Obligations.NonzeroVstartRaisesInSix : Prop :=
  ∀ (d vs2 vs1 : RegNum) (vm : Bool) (s : State), s.Ready → s.vstart ≠ 0 →
    exec (.vpopc d vs2 vm) s = raiseIllegal (encode (.vpopc d vs2 vm)) s ∧
      exec (.vfirst d vs2 vm) s = raiseIllegal (encode (.vfirst d vs2 vm)) s ∧
      (∀ make ∈ setFirsts, (make d vs2 vm).WellFormed →
        exec (make d vs2 vm) s = raiseIllegal (encode (make d vs2 vm)) s) ∧
      ((Instr.viota d vs2 vm).WellFormed → GroupAligned s d → ¬InGroup s d vs2 →
        exec (.viota d vs2 vm) s = raiseIllegal (encode (.viota d vs2 vm)) s) ∧
      (∀ make ∈ logicals, ∃ t, exec (make d vs2 vs1 true) s = .next t) ∧
      ((Instr.vid d vs2 vm).WellFormed → GroupAligned s d →
        ∃ t, exec (.vid d vs2 vm) s = .next t)

/-- R120, R121, R123, R127: with no trap entry the exception is the terminal fault that carries `pc`
and the word; with the machine-mode entry it is the next state R127 spells out, `vstart` and every other
register kept; with the platform's own entry (log entry 9) it is a next state with the `x` registers,
`pc` and trap registers that entry answers for cause 2, `pc`, the word and the state, as XLEN-bit values,
and the vector registers, `vstart`, `vl`, `vtype`, program text and parameters kept. -/
def Obligations.IllegalInstructionOutcome : Prop :=
  ∀ (w : InsnWord) (s : State),
    (s.params.trapEntry = .absent →
      raiseIllegal w s = .fault (.illegalInstruction s.pc w)) ∧
      (s.params.trapEntry = .machineMode →
        ∃ t, raiseIllegal w s = .next t ∧ t.trap.mepc = s.pc ∧ t.trap.mcause = 2 ∧
          t.trap.mtval = (if s.params.mtvalRecordsInsn = true then w.setWidth 64 else 0) ∧
          t.trap.mstatus.mpie = s.trap.mstatus.mie ∧ t.trap.mstatus.mie = false ∧
          t.trap.mstatus.mpp = s.trap.mode ∧ t.trap.mode = .machine ∧
          t.trap.mtvec = s.trap.mtvec ∧
          t.pc = trapBase (truncX s.params.xlen s.trap.mtvec) ∧
          t.x = s.x ∧ t.v = s.v ∧ t.vstart = s.vstart ∧ t.vl = s.vl ∧ t.vtype = s.vtype ∧
          t.mem = s.mem ∧ t.params = s.params) ∧
      (s.params.trapEntry = .platform →
        ∃ t, raiseIllegal w s = .next t ∧
          (let r := Config.platformEntry 2 s.pc w s
           t.pc = truncX s.params.xlen r.pc &&& ~~~3#64 ∧
             (∀ n, n ≠ 0 → t.readX n = truncX s.params.xlen (r.x[n.toNat]'(regNum_lt n))) ∧
             t.trap = r.trap.trunc s.params.xlen) ∧
          t.readX 0 = 0 ∧ t.v = s.v ∧ t.vstart = s.vstart ∧ t.vl = s.vl ∧ t.vtype = s.vtype ∧
          t.mem = s.mem ∧ t.params = s.params)

/-- R128: a return undoes the entry: `pc`, the interrupt enable and the mode are those before it. -/
def Obligations.TrapReturnUndoesEntry : Prop :=
  ∀ (w : InsnWord) (s : State),
    (s.takeIllegal w).returnFromTrap.pc = s.pc ∧
      (s.takeIllegal w).returnFromTrap.trap.mstatus.mie = s.trap.mstatus.mie ∧
      (s.takeIllegal w).returnFromTrap.trap.mode = s.trap.mode

/-! ### Well-formed states and steps -/

/-- R35 (decision D25): from an ill-formed state every instruction is refused; every step from a
well-formed one keeps well-formedness. -/
def Obligations.WellFormednessIsKept : Prop :=
  (∀ (i : Instr) (s : State) (why : IllFormed), s.illFormed = some why →
      exec i s = .refused (.illFormedState why)) ∧
    ∀ s t : State, step s = .next t → s.illFormed = none ∧ t.illFormed = none

/-- R35, R44, R23, R24: with `vill = 0`, what a well-formed state is; that `pc` is an XLEN-bit value
(R13, R41) is a condition of the model's container for it (log entry 3). -/
def Obligations.WellFormedMeansRuleR35 : Prop :=
  ∀ s : State, s.vtype.vill = false →
    (s.illFormed = none ↔
      paramsOk s.params = true ∧ s.pc.toNat < 2 ^ xlenBits s.params.xlen ∧ s.pc.toNat % 4 = 0 ∧
        s.vstart < s.params.vlen ∧ s.vtype.vsew.toNat < 4 ∧ s.vtype.vlmul ≠ 4 ∧ 8 * 2 ^ s.vtype.vsew.toNat ≤ s.params.elen ∧
        1 ≤ s.vtype.vlmax s.params.vlen ∧ s.vl ≤ s.vtype.vlmax s.params.vlen)

/-- The invariant of `Sys2Proof/Safety.lean`: R10, R11, R13, R14, R35 and the canonical form of
memory. -/
def Obligations.StepKeepsInvariant : Prop := ∀ s t : State, s.Inv → step s = .next t → t.Inv

/-- The reset state (its values are the model's choice, log entries 1, 4 and 10) meets it. -/
def Obligations.ResetMeetsInvariant : Prop := State.reset.Inv

/-- R34: `x[0]` is 0 after reset; R4, R60, R120, R131: the defaults the spec names. The rest of the
reset state is the model's choice (log entries 1, 4 and 10). -/
def Obligations.ResetHoldsDefaults : Prop :=
  State.reset.readX 0 = 0 ∧ State.reset.params.reservedBehaviour = .refuse ∧
    State.reset.params.vectorEnabled = true ∧ State.reset.params.trapEntry = .absent

/-- R42: a step is the decoded instruction, with nothing added around it (from an ill-formed state both
are the same refusal). -/
def Obligations.StepRunsDecodedInstruction : Prop :=
  ∀ (s : State) (w : InsnWord) (i : Instr), s.fetch = some w →
    decode w = .instr i → step s = exec i s

/-- R35, R42, R44, R64: an ill-formed state is refused, with a misaligned `pc` one that is; from a
well-formed one, outside the program the hart is stuck, and a word that is no instruction is refused by
name. Which of several stops is reported is the model's choice (log entry 27). -/
def Obligations.StepStopsByName : Prop :=
  ∀ s : State,
    (∀ why, s.illFormed = some why → step s = .refused (.illFormedState why)) ∧
      (s.pcAligned = false → ∃ why, step s = .refused (.illFormedState why)) ∧
      (s.illFormed = none → s.fetch = none → step s = .fault (.stuckOutsideProgram s.pc)) ∧
      ∀ w why, s.illFormed = none → s.fetch = some w → decode w = .notInSpec why →
        step s = .refused (.notInSpec why w)

/-- R43: the word fetched has its bits 7:0 in the byte at `pc`, bits 15:8 at `pc + 1`, bits 23:16 at
`pc + 2` and bits 31:24 at `pc + 3`, addresses wrapping modulo 2^XLEN (R41), and all four are there. -/
def Obligations.FetchIsLittleEndian : Prop :=
  ∀ (s : State) (w : InsnWord),
    s.fetch = some w ↔
      let at' := fun k => s.mem.read ((s.pc.toNat + k) % 2 ^ xlenBits s.params.xlen)
      at' 0 = some (w.extractLsb' 0 8) ∧ at' 1 = some (w.extractLsb' 8 8) ∧
        at' 2 = some (w.extractLsb' 16 8) ∧ at' 3 = some (w.extractLsb' 24 8)

/-- R42, R41: placing a byte makes it the byte read there and leaves every other address alone; a
program that fits the address space is read where it was placed, over the top of it too. -/
def Obligations.PlacedByteIsRead : Prop :=
  (∀ (m : Memory) (a a' : Nat) (b : Byte),
      (m.write a b).read a' = if a' = a then some b else m.read a') ∧
    ∀ (s : State) (base : Nat) (words : List InsnWord),
      4 * words.length ≤ 2 ^ xlenBits s.params.xlen →
      State.Loaded (s.setMem (s.mem.writeProgram s.params.xlen base words)) base words

/-- R143 (decision D19): a run of `n` safe steps from `base` ends, with `pc` past the `n` words, modulo
2^XLEN; a step that raises the exception is in no run that ends, trap entry or not (log entry 28). -/
def Obligations.SafeStepsEndTheRun : Prop :=
  (∀ (n : Nat) (s t : State) (base : Nat), s.Finished base 0 → State.Runs n s t →
      s.Ends t base n) ∧
    ∀ (s : State) (i : Instr), s.fetch = some (encode i) →
      exec i s.withoutEntry = raiseIllegal (encode i) s.withoutEntry → ∀ t, ¬s.SafeStep t

/-- The launch of one instruction (log entry 5): the next step runs exactly it. -/
def Obligations.LaunchedInstructionRunsNext : Prop :=
  ∀ (i : Instr) (s : State),
    step (s.withFetchWord 32 (encode i).toNat) = exec i (s.withFetchWord 32 (encode i).toNat)

/-! ### Encodings -/

/-- R68: decoding what the encoder gives returns the instruction, reserved ones included. -/
def Obligations.DecodeOfEncode : Prop :=
  ∀ i : Instr, decode (encode i) = .instr i ∧
    ∀ rest, decodeBytes (encodeBytes i ++ rest) = .instr i rest

/-- R68: encoding what the decoder reads returns the word, reserved ones included. -/
def Obligations.EncodeOfDecode : Prop :=
  ∀ (w : InsnWord) (i : Instr), decode w = .instr i → encode i = w

/-- R55, R56, R57: a word that agrees with a row of the opcode map on the bits of its mask decodes to
that row's instruction, its fields at the bits R52 gives. -/
def Obligations.OpcodeMapDecodes : Prop :=
  ∀ row ∈ opcodeMap, ∀ w : InsnWord, w &&& row.2.1 = row.1 →
    decode w = .instr (row.2.2 (w.extractLsb' 7 5) (w.extractLsb' 20 5) (w.extractLsb' 15 5)
      (w.getLsbD 25))

/-- R64: exactly which words are none of the fifteen instructions. -/
def Obligations.WordsOutsideTheSpec : Prop :=
  ∀ w : InsnWord,
    (∃ why, decode w = .notInSpec why) ↔
      w.extractLsb' 0 7 ≠ 0b1010111 ∨ w.extractLsb' 12 3 ≠ 0b010 ∨
        (w.extractLsb' 26 6 ≠ 0b010000 ∧ w.extractLsb' 26 6 ≠ 0b010100 ∧
          w.extractLsb' 29 3 ≠ (0b011 : BitVec 3)) ∨
        (w.extractLsb' 26 6 = 0b010000 ∧ w.extractLsb' 15 5 ≠ 0b10000 ∧
          w.extractLsb' 15 5 ≠ 0b10001) ∨
        (w.extractLsb' 26 6 = 0b010100 ∧ w.extractLsb' 15 5 ≠ 0b00001 ∧
          w.extractLsb' 15 5 ≠ 0b00010 ∧ w.extractLsb' 15 5 ≠ 0b00011 ∧
          w.extractLsb' 15 5 ≠ 0b10000 ∧ w.extractLsb' 15 5 ≠ 0b10001)

/-- The decoder vectors T90 to T98 of 95_test_vectors.md. -/
def Obligations.WrittenOutWordsDecode : Prop :=
  decode 0x66002057 = .instr (.vmand 0 0 0 true) ∧
    decode 0x7FFFAFD7 = .instr (.vmxnor 31 31 31 true) ∧
    decode 0x42282557 = .instr (.vpopc 10 2 true) ∧
    decode 0x4238A5D7 = .instr (.vfirst 11 3 true) ∧
    decode 0x5230A157 = .instr (.vmsbf 2 3 true) ∧
    decode 0x52312157 = .instr (.vmsof 2 3 true) ∧
    decode 0x5231A157 = .instr (.vmsif 2 3 true) ∧
    decode 0x52282257 = .instr (.viota 4 2 true) ∧
    decode 0x5208A657 = .instr (.vid 12 0 true)
end

