-- ==== Sys2Proof/Laws/State.lean ====
section
/-! SUPPORT. One lemma per field per update of the state, all by unfolding the update once. -/

namespace Sys2Proof.Machine.State

variable (s : State)

@[simp] theorem setX_params (a : Vector XWord 32) : (s.setX a).params = s.params := rfl
@[simp] theorem setX_x (a : Vector XWord 32) : (s.setX a).x = a := rfl
@[simp] theorem setX_pc (a : Vector XWord 32) : (s.setX a).pc = s.pc := rfl
@[simp] theorem setX_v (a : Vector XWord 32) : (s.setX a).v = s.v := rfl
@[simp] theorem setX_vstart (a : Vector XWord 32) : (s.setX a).vstart = s.vstart := rfl
@[simp] theorem setX_vl (a : Vector XWord 32) : (s.setX a).vl = s.vl := rfl
@[simp] theorem setX_vtype (a : Vector XWord 32) : (s.setX a).vtype = s.vtype := rfl
@[simp] theorem setX_trap (a : Vector XWord 32) : (s.setX a).trap = s.trap := rfl
@[simp] theorem setX_mem (a : Vector XWord 32) : (s.setX a).mem = s.mem := rfl
@[simp] theorem setX_draws (a : Vector XWord 32) : (s.setX a).draws = s.draws := rfl

@[simp] theorem setPc_params (a : XWord) : (s.setPc a).params = s.params := rfl
@[simp] theorem setPc_x (a : XWord) : (s.setPc a).x = s.x := rfl
@[simp] theorem setPc_pc (a : XWord) : (s.setPc a).pc = a := rfl
@[simp] theorem setPc_v (a : XWord) : (s.setPc a).v = s.v := rfl
@[simp] theorem setPc_vstart (a : XWord) : (s.setPc a).vstart = s.vstart := rfl
@[simp] theorem setPc_vl (a : XWord) : (s.setPc a).vl = s.vl := rfl
@[simp] theorem setPc_vtype (a : XWord) : (s.setPc a).vtype = s.vtype := rfl
@[simp] theorem setPc_trap (a : XWord) : (s.setPc a).trap = s.trap := rfl
@[simp] theorem setPc_mem (a : XWord) : (s.setPc a).mem = s.mem := rfl
@[simp] theorem setPc_draws (a : XWord) : (s.setPc a).draws = s.draws := rfl

@[simp] theorem setV_params (a : Vector VReg 32) : (s.setV a).params = s.params := rfl
@[simp] theorem setV_x (a : Vector VReg 32) : (s.setV a).x = s.x := rfl
@[simp] theorem setV_pc (a : Vector VReg 32) : (s.setV a).pc = s.pc := rfl
@[simp] theorem setV_v (a : Vector VReg 32) : (s.setV a).v = a := rfl
@[simp] theorem setV_vstart (a : Vector VReg 32) : (s.setV a).vstart = s.vstart := rfl
@[simp] theorem setV_vl (a : Vector VReg 32) : (s.setV a).vl = s.vl := rfl
@[simp] theorem setV_vtype (a : Vector VReg 32) : (s.setV a).vtype = s.vtype := rfl
@[simp] theorem setV_trap (a : Vector VReg 32) : (s.setV a).trap = s.trap := rfl
@[simp] theorem setV_mem (a : Vector VReg 32) : (s.setV a).mem = s.mem := rfl
@[simp] theorem setV_draws (a : Vector VReg 32) : (s.setV a).draws = s.draws := rfl

@[simp] theorem setVstart_params (a : Nat) : (s.setVstart a).params = s.params := rfl
@[simp] theorem setVstart_x (a : Nat) : (s.setVstart a).x = s.x := rfl
@[simp] theorem setVstart_pc (a : Nat) : (s.setVstart a).pc = s.pc := rfl
@[simp] theorem setVstart_v (a : Nat) : (s.setVstart a).v = s.v := rfl
@[simp] theorem setVstart_vstart (a : Nat) : (s.setVstart a).vstart = a := rfl
@[simp] theorem setVstart_vl (a : Nat) : (s.setVstart a).vl = s.vl := rfl
@[simp] theorem setVstart_vtype (a : Nat) : (s.setVstart a).vtype = s.vtype := rfl
@[simp] theorem setVstart_trap (a : Nat) : (s.setVstart a).trap = s.trap := rfl
@[simp] theorem setVstart_mem (a : Nat) : (s.setVstart a).mem = s.mem := rfl
@[simp] theorem setVstart_draws (a : Nat) : (s.setVstart a).draws = s.draws := rfl

@[simp] theorem setTrap_params (a : TrapRegs) : (s.setTrap a).params = s.params := rfl
@[simp] theorem setTrap_x (a : TrapRegs) : (s.setTrap a).x = s.x := rfl
@[simp] theorem setTrap_pc (a : TrapRegs) : (s.setTrap a).pc = s.pc := rfl
@[simp] theorem setTrap_v (a : TrapRegs) : (s.setTrap a).v = s.v := rfl
@[simp] theorem setTrap_vstart (a : TrapRegs) : (s.setTrap a).vstart = s.vstart := rfl
@[simp] theorem setTrap_vl (a : TrapRegs) : (s.setTrap a).vl = s.vl := rfl
@[simp] theorem setTrap_vtype (a : TrapRegs) : (s.setTrap a).vtype = s.vtype := rfl
@[simp] theorem setTrap_trap (a : TrapRegs) : (s.setTrap a).trap = a := rfl
@[simp] theorem setTrap_mem (a : TrapRegs) : (s.setTrap a).mem = s.mem := rfl
@[simp] theorem setTrap_draws (a : TrapRegs) : (s.setTrap a).draws = s.draws := rfl

@[simp] theorem setMem_params (a : Memory) : (s.setMem a).params = s.params := rfl
@[simp] theorem setMem_x (a : Memory) : (s.setMem a).x = s.x := rfl
@[simp] theorem setMem_pc (a : Memory) : (s.setMem a).pc = s.pc := rfl
@[simp] theorem setMem_v (a : Memory) : (s.setMem a).v = s.v := rfl
@[simp] theorem setMem_vstart (a : Memory) : (s.setMem a).vstart = s.vstart := rfl
@[simp] theorem setMem_vl (a : Memory) : (s.setMem a).vl = s.vl := rfl
@[simp] theorem setMem_vtype (a : Memory) : (s.setMem a).vtype = s.vtype := rfl
@[simp] theorem setMem_trap (a : Memory) : (s.setMem a).trap = s.trap := rfl
@[simp] theorem setMem_mem (a : Memory) : (s.setMem a).mem = a := rfl
@[simp] theorem setMem_draws (a : Memory) : (s.setMem a).draws = s.draws := rfl

@[simp] theorem setDraws_params (a : Nat) : (s.setDraws a).params = s.params := rfl
@[simp] theorem setDraws_x (a : Nat) : (s.setDraws a).x = s.x := rfl
@[simp] theorem setDraws_pc (a : Nat) : (s.setDraws a).pc = s.pc := rfl
@[simp] theorem setDraws_v (a : Nat) : (s.setDraws a).v = s.v := rfl
@[simp] theorem setDraws_vstart (a : Nat) : (s.setDraws a).vstart = s.vstart := rfl
@[simp] theorem setDraws_vl (a : Nat) : (s.setDraws a).vl = s.vl := rfl
@[simp] theorem setDraws_vtype (a : Nat) : (s.setDraws a).vtype = s.vtype := rfl
@[simp] theorem setDraws_trap (a : Nat) : (s.setDraws a).trap = s.trap := rfl
@[simp] theorem setDraws_mem (a : Nat) : (s.setDraws a).mem = s.mem := rfl
@[simp] theorem setDraws_draws (a : Nat) : (s.setDraws a).draws = a := rfl

@[simp] theorem advance_params : s.advance.params = s.params := rfl
@[simp] theorem advance_x : s.advance.x = s.x := rfl
@[simp] theorem advance_pc : s.advance.pc = s.nextPc := rfl
@[simp] theorem advance_v : s.advance.v = s.v := rfl
@[simp] theorem advance_vstart : s.advance.vstart = s.vstart := rfl
@[simp] theorem advance_vl : s.advance.vl = s.vl := rfl
@[simp] theorem advance_vtype : s.advance.vtype = s.vtype := rfl
@[simp] theorem advance_trap : s.advance.trap = s.trap := rfl
@[simp] theorem advance_mem : s.advance.mem = s.mem := rfl
@[simp] theorem advance_draws : s.advance.draws = s.draws := rfl

@[simp] theorem nextDraw_params : s.nextDraw.params = s.params := rfl
@[simp] theorem nextDraw_x : s.nextDraw.x = s.x := rfl
@[simp] theorem nextDraw_pc : s.nextDraw.pc = s.pc := rfl
@[simp] theorem nextDraw_v : s.nextDraw.v = s.v := rfl
@[simp] theorem nextDraw_vstart : s.nextDraw.vstart = s.vstart := rfl
@[simp] theorem nextDraw_vl : s.nextDraw.vl = s.vl := rfl
@[simp] theorem nextDraw_vtype : s.nextDraw.vtype = s.vtype := rfl
@[simp] theorem nextDraw_trap : s.nextDraw.trap = s.trap := rfl
@[simp] theorem nextDraw_mem : s.nextDraw.mem = s.mem := rfl
@[simp] theorem nextDraw_draws : s.nextDraw.draws = s.draws + 1 := rfl

@[simp] theorem writeV_params (n : RegNum) (r : VReg) : (s.writeV n r).params = s.params := rfl
@[simp] theorem writeV_x (n : RegNum) (r : VReg) : (s.writeV n r).x = s.x := rfl
@[simp] theorem writeV_pc (n : RegNum) (r : VReg) : (s.writeV n r).pc = s.pc := rfl
@[simp] theorem writeV_vstart (n : RegNum) (r : VReg) : (s.writeV n r).vstart = s.vstart := rfl
@[simp] theorem writeV_vl (n : RegNum) (r : VReg) : (s.writeV n r).vl = s.vl := rfl
@[simp] theorem writeV_vtype (n : RegNum) (r : VReg) : (s.writeV n r).vtype = s.vtype := rfl
@[simp] theorem writeV_trap (n : RegNum) (r : VReg) : (s.writeV n r).trap = s.trap := rfl
@[simp] theorem writeV_mem (n : RegNum) (r : VReg) : (s.writeV n r).mem = s.mem := rfl
@[simp] theorem writeV_draws (n : RegNum) (r : VReg) : (s.writeV n r).draws = s.draws := rfl

@[simp] theorem writeX_params (r : RegNum) (w : XWord) : (s.writeX r w).params = s.params := by
  unfold writeX; split <;> rfl
@[simp] theorem writeX_pc (r : RegNum) (w : XWord) : (s.writeX r w).pc = s.pc := by
  unfold writeX; split <;> rfl
@[simp] theorem writeX_v (r : RegNum) (w : XWord) : (s.writeX r w).v = s.v := by
  unfold writeX; split <;> rfl
@[simp] theorem writeX_vstart (r : RegNum) (w : XWord) : (s.writeX r w).vstart = s.vstart := by
  unfold writeX; split <;> rfl
@[simp] theorem writeX_vl (r : RegNum) (w : XWord) : (s.writeX r w).vl = s.vl := by
  unfold writeX; split <;> rfl
@[simp] theorem writeX_vtype (r : RegNum) (w : XWord) : (s.writeX r w).vtype = s.vtype := by
  unfold writeX; split <;> rfl
@[simp] theorem writeX_trap (r : RegNum) (w : XWord) : (s.writeX r w).trap = s.trap := by
  unfold writeX; split <;> rfl
@[simp] theorem writeX_mem (r : RegNum) (w : XWord) : (s.writeX r w).mem = s.mem := by
  unfold writeX; split <;> rfl
@[simp] theorem writeX_draws (r : RegNum) (w : XWord) : (s.writeX r w).draws = s.draws := by
  unfold writeX; split <;> rfl

@[simp] theorem takeIllegal_params (w : InsnWord) : (s.takeIllegal w).params = s.params := rfl
@[simp] theorem takeIllegal_x (w : InsnWord) : (s.takeIllegal w).x = s.x := rfl
@[simp] theorem takeIllegal_v (w : InsnWord) : (s.takeIllegal w).v = s.v := rfl
@[simp] theorem takeIllegal_vstart (w : InsnWord) : (s.takeIllegal w).vstart = s.vstart := rfl
@[simp] theorem takeIllegal_vl (w : InsnWord) : (s.takeIllegal w).vl = s.vl := rfl
@[simp] theorem takeIllegal_vtype (w : InsnWord) : (s.takeIllegal w).vtype = s.vtype := rfl
@[simp] theorem takeIllegal_mem (w : InsnWord) : (s.takeIllegal w).mem = s.mem := rfl
@[simp] theorem takeIllegal_draws (w : InsnWord) : (s.takeIllegal w).draws = s.draws := rfl
@[simp] theorem takeIllegal_pc (w : InsnWord) :
    (s.takeIllegal w).pc = trapBase (truncX s.params.xlen s.trap.mtvec) := rfl

@[simp] theorem takePlatform_params (w : InsnWord) : (s.takePlatform w).params = s.params := rfl
@[simp] theorem takePlatform_v (w : InsnWord) : (s.takePlatform w).v = s.v := rfl
@[simp] theorem takePlatform_vstart (w : InsnWord) : (s.takePlatform w).vstart = s.vstart := rfl
@[simp] theorem takePlatform_vl (w : InsnWord) : (s.takePlatform w).vl = s.vl := rfl
@[simp] theorem takePlatform_vtype (w : InsnWord) : (s.takePlatform w).vtype = s.vtype := rfl
@[simp] theorem takePlatform_mem (w : InsnWord) : (s.takePlatform w).mem = s.mem := rfl
@[simp] theorem takePlatform_draws (w : InsnWord) : (s.takePlatform w).draws = s.draws := rfl

end Sys2Proof.Machine.State
end

