-- ==== Sys2Proof/Laws/Ops.lean ====
section
/-! SUPPORT. What the register operations and the exception outcomes can do, said once. -/

namespace Sys2Proof.Machine

@[simp] theorem truncX_idem (xl : XLen) (w : XWord) : truncX xl (truncX xl w) = truncX xl w := by
  cases xl with
  | rv64 => rfl
  | rv32 =>
    apply BitVec.eq_of_toNat_eq
    simp [truncX]

/-- `trunc_XLEN(v)` is `v mod 2^XLEN` (R6). -/
theorem truncX_toNat (xl : XLen) (w : XWord) : (truncX xl w).toNat = w.toNat % 2 ^ xlenBits xl := by
  cases xl with
  | rv64 => exact (Nat.mod_eq_of_lt w.isLt).symm
  | rv32 => simp [truncX, xlenBits]; omega

/-- Reading the vector register written, or another. -/
theorem State.readV_writeV (s : State) (n m : RegNum) (r : VReg) :
    (s.writeV n r).readV m = if m = n then r else s.readV m := by
  by_cases hm : m = n
  · subst hm
    simp [State.readV, State.writeV]
  · have hne : n.toNat ≠ m.toNat := fun h => hm (BitVec.toNat_inj.mp h.symm)
    simp [State.readV, State.writeV, hm, hne]

/-- Reading the scalar register written, or another; `x0` reads 0 (R11). -/
theorem State.readX_writeX (s : State) (n m : RegNum) (w : XWord) :
    (s.writeX n w).readX m =
      if m = n ∧ n ≠ 0 then truncX s.params.xlen w else s.readX m := by
  by_cases hn : n = 0
  · simp [State.writeX, hn]
  · have hw : s.writeX n w = s.setX (s.x.set n.toNat (truncX s.params.xlen w) (regNum_lt n)) :=
      if_neg hn
    rw [hw]
    by_cases hm : m = n
    · subst hm
      simp only [State.readX, hn, State.setX_x, Vector.getElem_set_self, if_false, ne_eq,
        not_false_eq_true, and_self, if_true]
    · have hne : n.toNat ≠ m.toNat := fun h => hm (BitVec.toNat_inj.mp h.symm)
      simp [State.readX, hm, hne]

/-- Raising the exception answers a next state only through a trap entry, the one present. -/
theorem raiseIllegal_eq_next {w : InsnWord} {s t : State} :
    raiseIllegal w s = .next t ↔
      (s.params.trapEntry = .machineMode ∧ t = s.takeIllegal w) ∨
        (s.params.trapEntry = .platform ∧ t = s.takePlatform w) := by
  unfold raiseIllegal
  cases s.params.trapEntry <;> simp [eq_comm]

/-- What every trap entry keeps (R127). -/
theorem raiseIllegal_keeps {w : InsnWord} {s t : State} (h : raiseIllegal w s = .next t) :
    t.params = s.params ∧ t.v = s.v ∧ t.vstart = s.vstart ∧ t.vl = s.vl ∧ t.vtype = s.vtype ∧
      t.mem = s.mem := by
  obtain ⟨-, rfl⟩ | ⟨-, rfl⟩ := raiseIllegal_eq_next.mp h <;> exact ⟨rfl, rfl, rfl, rfl, rfl, rfl⟩

/-- A reserved encoding answers a next state only by raising the exception. -/
theorem reservedOutcome_next {why : ReservedReason} {w : InsnWord} {s t : State}
    (h : reservedOutcome why w s = .next t) : raiseIllegal w s = .next t := by
  unfold reservedOutcome at h
  split at h
  · cases h
  · exact h

end Sys2Proof.Machine
end

