-- ==== Sys2Proof/Laws/Operands.lean ====
section
/-! SUPPORT. Facts about the quantities derived from `vtype` in well-formed states (R24, R35). -/

namespace Sys2Proof.Machine

/-- VLEN is a power of two between 8 and 65536 (R4). -/
theorem paramsOk_vlen {p : Params} (h : paramsOk p = true) : ∃ k, p.vlen = 2 ^ k ∧ 3 ≤ k ∧ k ≤ 16 := by
  simp only [paramsOk, Bool.and_eq_true, decide_eq_true_eq] at h
  have hv := h.1.1.1
  simp only [vlenValues, List.mem_cons, List.not_mem_nil, or_false] at hv
  rcases hv with hv | hv | hv | hv | hv | hv | hv | hv | hv | hv | hv | hv | hv | hv
  exacts [⟨3, by omega⟩, ⟨4, by omega⟩, ⟨5, by omega⟩, ⟨6, by omega⟩, ⟨7, by omega⟩, ⟨8, by omega⟩,
    ⟨9, by omega⟩, ⟨10, by omega⟩, ⟨11, by omega⟩, ⟨12, by omega⟩, ⟨13, by omega⟩, ⟨14, by omega⟩,
    ⟨15, by omega⟩, ⟨16, by omega⟩]

/-- What it means that R35 finds nothing wrong. -/
theorem State.illFormed_eq_none (s : State) :
    s.illFormed = none ↔
      paramsOk s.params = true ∧ truncX s.params.xlen s.pc = s.pc ∧ s.pcAligned = true ∧ s.vstart < s.params.vlen ∧
        (s.vtype.vill = true → s.vl ≤ s.params.vlen) ∧
        (s.vtype.vill = false →
          s.vtype.legal s.params = true ∧ s.vl ≤ s.vtype.vlmax s.params.vlen) := by
  unfold State.illFormed
  constructor
  · intro h
    repeat' split at h
    all_goals simp_all
  · rintro ⟨hp, hr, ha, hv, ht, hf⟩
    cases hvill : s.vtype.vill with
    | false => simp [hp, hr, ha, Nat.not_le.mpr hv, hf hvill]
    | true => simp [hp, hr, ha, Nat.not_le.mpr hv, ht hvill]

/-- A legal SEW is 8, 16, 32 or 64, and at most ELEN. -/
theorem VType.legal_sew {t : VType} {p : Params} (h : t.legal p = true) :
    ∃ e, t.sew = 2 ^ e ∧ 3 ≤ e ∧ e ≤ 6 ∧ t.sew ≤ p.elen := by
  simp only [VType.legal, Bool.and_eq_true, decide_eq_true_eq] at h
  obtain ⟨⟨⟨hs, -⟩, he⟩, -⟩ := h
  exact ⟨3 + t.vsew.toNat, by rw [VType.sew, pow_add]; rfl, by omega, by omega, he⟩

/-- The group size is 1, 2, 4 or 8. -/
theorem VType.groupSize_cases (t : VType) :
    t.groupSize = 1 ∨ t.groupSize = 2 ∨ t.groupSize = 4 ∨ t.groupSize = 8 := by
  have h : ∀ b : BitVec 3, b.toInt.toNat = 0 ∨ b.toInt.toNat = 1 ∨ b.toInt.toNat = 2 ∨
      b.toInt.toNat = 3 := by decide
  unfold VType.groupSize VType.lmulNum
  rcases h t.vlmul with h | h | h | h <;> rw [h] <;> decide

/-- `vl` is at most VLEN in every well-formed state: a mask fits one register (R16, R24). -/
theorem State.vl_le_vlen {s : State} (h : s.illFormed = none) : s.vl ≤ s.params.vlen := by
  obtain ⟨-, -, -, -, ht, hf⟩ := s.illFormed_eq_none.mp h
  cases hv : s.vtype.vill with
  | true => exact ht hv
  | false =>
    refine (hf hv).2.trans (Nat.div_le_of_le_mul (Nat.mul_le_mul_right _ ?_))
    have h1 : s.vtype.lmulNum ≤ 8 := by
      rcases s.vtype.groupSize_cases with h | h | h | h <;> exact h.le.trans (by decide)
    have h2 : 1 ≤ s.vtype.lmulDen := Nat.one_le_two_pow
    have h3 : 8 ≤ s.vtype.sew := Nat.le_mul_of_pos_right 8 (Nat.two_pow_pos _)
    nlinarith

/-- A whole number of SEW-bit elements fits a register. -/
theorem sew_dvd_vlen {t : VType} {p : Params} (hp : paramsOk p = true) (ht : t.legal p = true) :
    t.sew ∣ p.vlen := by
  obtain ⟨k, hk, -, -⟩ := paramsOk_vlen hp
  obtain ⟨e, he, -, -, hle⟩ := VType.legal_sew ht
  simp only [paramsOk, Bool.and_eq_true, decide_eq_true_eq] at hp
  have : t.sew ≤ p.vlen := le_trans hle hp.1.2
  rw [he, hk] at *
  exact pow_dvd_pow 2 ((Nat.pow_le_pow_iff_right (by omega)).mp this)

end Sys2Proof.Machine
end

