-- ==== Sys2Proof/Laws/Flags.lean ====
section
/-! SUPPORT. Element classes, and what the new value of a mask register or of a register group holds,
bit by bit. -/

namespace Sys2Proof.Machine

/-- Element `i` of a mask destination, class by class (R28, R30, R31). -/
theorem State.newMaskBit_eq (s : State) (vd : RegNum) (vm : Bool) (body : Nat → Bool) (i : Nat) :
    s.newMaskBit vd vm body i =
      if i < s.vstart then s.maskBit vd i
      else if s.vl ≤ i then Config.freeBit s.draws i
      else if s.enabled vm i then body i
      else if s.vtype.vma then Config.freeBit s.draws i else s.maskBit vd i := by
  unfold State.newMaskBit State.elementClass
  split_ifs <;> simp_all

/-- Bit `p` of a destination group, by the class of its element (R28, R31, R32). -/
theorem State.newGroupBit_eq (s : State) (vm : Bool) (value : Nat → Nat) (old : Bool) (p : Nat) :
    s.newGroupBit vm value old p =
      if p / s.vtype.sew < s.vstart then old
      else if s.vl ≤ p / s.vtype.sew then if s.vtype.vta then Config.freeBit s.draws p else old
      else if s.enabled vm (p / s.vtype.sew) then (value (p / s.vtype.sew)).testBit (p % s.vtype.sew)
      else if s.vtype.vma then Config.freeBit s.draws p else old := by
  unfold State.newGroupBit State.elementClass
  split_ifs <;> simp_all

@[simp] theorem State.newMask_length (s : State) (vd : RegNum) (vm : Bool) (body : Nat → Bool) :
    (s.newMask vd vm body).length = s.params.vlen := by
  simp [State.newMask]

/-- Element `i` of a new mask. -/
theorem State.newMask_getD (s : State) (vd : RegNum) (vm : Bool) (body : Nat → Bool) {i : Nat}
    (h : i < s.params.vlen) :
    (s.newMask vd vm body).getD i false = s.newMaskBit vd vm body i := by
  simp [State.newMask, List.getD, h]

@[simp] theorem State.newGroupReg_length (s : State) (vm : Bool) (value : Nat → Nat) (n : RegNum)
    (k : Nat) : (s.newGroupReg vm value n k).length = s.params.vlen := by
  simp [State.newGroupReg]

/-- Bit `j` of a new group register. -/
theorem State.newGroupReg_getD (s : State) (vm : Bool) (value : Nat → Nat) (n : RegNum) (k : Nat)
    {j : Nat} (h : j < s.params.vlen) :
    (s.newGroupReg vm value n k).getD j false =
      s.newGroupBit vm value (s.maskBit n j) (k * s.params.vlen + j) := by
  simp [State.newGroupReg, List.getD, h]

/-- A vector register after a group is written: in the group, or as it was. -/
theorem State.readV_newGroup (s : State) (vd : RegNum) (vm : Bool) (value : Nat → Nat) (n : RegNum) :
    (s.setV (s.newGroup vd vm value)).readV n =
      if vd.toNat ≤ n.toNat ∧ n.toNat < vd.toNat + s.vtype.groupSize then
        s.newGroupReg vm value n (n.toNat - vd.toNat)
      else s.readV n := by
  simp [State.readV, State.newGroup]

/-- A count of set elements below `n` is at most `n` (R91). -/
theorem State.countBelow_le (s : State) (vs2 : RegNum) (vm : Bool) (n : Nat) :
    s.countBelow vs2 vm n ≤ n := by
  simpa [State.countBelow] using (List.range n).countP_le_length (p := s.activeSet vs2 vm)

/-- The first set element, where there is one (R95, R103). -/
theorem State.firstSet_eq_some (s : State) (vs2 : RegNum) (vm : Bool) (k : Nat) :
    s.firstSet vs2 vm = some k ↔
      s.activeSet vs2 vm k = true ∧ k < s.vl ∧ ∀ j < k, s.activeSet vs2 vm j = false := by
  simp [State.firstSet, List.find?_range_eq_some]

/-- No first set element: no active element is 1 (R95, R103). -/
theorem State.firstSet_eq_none (s : State) (vs2 : RegNum) (vm : Bool) :
    s.firstSet vs2 vm = none ↔ ∀ j < s.vl, s.activeSet vs2 vm j = false := by
  simp [State.firstSet, List.find?_eq_none]

end Sys2Proof.Machine
end

