-- ==== Sys2Proof/Laws/Checks.lean ====
section
/-! SUPPORT. Everything the shared checks can answer (R126). -/

namespace Sys2Proof.Machine

/-- `attempt` answers a next state in two ways: the instruction completes, every check passed; or it
raises and a trap entry is taken. -/
theorem attempt_next {i : Instr} {byLmul : Option ReservedReason} {need : Bool} {done s t : State}
    (h : attempt i byLmul need done s = .next t) :
    (t = done ∧ s.illFormed = none ∧ staticReserved i = none ∧ s.params.vectorEnabled = true ∧
        s.vtype.vill = false ∧ byLmul = none ∧ (need = true → s.vstart = 0)) ∨
      (raiseIllegal (encode i) s = .next t ∧ s.illFormed = none) := by
  unfold attempt at h
  split at h
  · cases h
  · next hw =>
    split at h
    · exact .inr ⟨reservedOutcome_next h, hw⟩
    · next hs =>
      split at h
      · exact .inr ⟨h, hw⟩
      · next he =>
        split at h
        · exact .inr ⟨reservedOutcome_next h, hw⟩
        · next hl =>
          split at h
          · exact .inr ⟨h, hw⟩
          · next hv =>
            injection h with h
            exact .inl ⟨h.symm, hw, hs, by simp_all, by simp_all, rfl, fun hn => by simp_all⟩

/-- With every check passed the instruction completes. -/
theorem attempt_completes {i : Instr} {need : Bool} {done s : State} (hr : s.illFormed = none)
    (he : s.params.vectorEnabled = true) (hv : s.vtype.vill = false) (hs : staticReserved i = none)
    (hz : need = true → s.vstart = 0) : attempt i none need done s = .next done := by
  unfold attempt
  cases need <;> simp_all

end Sys2Proof.Machine
end

