-- ==== Sys2Proof/Laws/Exec.lean ====
section
/-! SUPPORT. Every instruction is the shared checks over the state it leaves when it completes. -/

namespace Sys2Proof.Machine

/-- The state an instruction leaves when every check has passed. -/
def completed (s : State) : Instr → State
  | .vmandnot vd vs2 vs1 _ => s.logical (fun a b => a && !b) vd vs2 vs1
  | .vmand vd vs2 vs1 _ => s.logical (fun a b => a && b) vd vs2 vs1
  | .vmor vd vs2 vs1 _ => s.logical (fun a b => a || b) vd vs2 vs1
  | .vmxor vd vs2 vs1 _ => s.logical (fun a b => a ^^ b) vd vs2 vs1
  | .vmornot vd vs2 vs1 _ => s.logical (fun a b => a || !b) vd vs2 vs1
  | .vmnand vd vs2 vs1 _ => s.logical (fun a b => !(a && b)) vd vs2 vs1
  | .vmnor vd vs2 vs1 _ => s.logical (fun a b => !(a || b)) vd vs2 vs1
  | .vmxnor vd vs2 vs1 _ => s.logical (fun a b => !(a ^^ b)) vd vs2 vs1
  | .vpopc rd vs2 vm => (s.writeX rd (BitVec.ofNat 64 (s.countBelow vs2 vm s.vl))).advance
  | .vfirst rd vs2 vm => (s.writeX rd (firstResult s.params.xlen (s.firstSet vs2 vm))).advance
  | .vmsbf vd vs2 vm => s.setFirst beforeFirst vd vs2 vm
  | .vmsof vd vs2 vm => s.setFirst onlyFirst vd vs2 vm
  | .vmsif vd vs2 vm => s.setFirst includingFirst vd vs2 vm
  | .viota vd vs2 vm =>
    ((s.setV (s.newGroup vd vm fun i => s.countBelow vs2 vm i)).nextDraw).advance
  | .vid vd _ vm => (((s.setV (s.newGroup vd vm fun i => i)).setVstart 0).nextDraw).advance

/-- The reserved verdict that needs LMUL (R126 check 3). -/
def reservedByLmul (s : State) : Instr → Option ReservedReason
  | .viota vd vs2 _ => s.reservedIota vd vs2
  | .vid vd _ _ => s.reservedId vd
  | _ => none

/-- The instructions that raise on a non-zero `vstart` (R122, first row). -/
def needsVstartZero : Instr → Bool
  | .vpopc .. | .vfirst .. | .vmsbf .. | .vmsif .. | .vmsof .. | .viota .. => true
  | _ => false

@[simp] theorem completed_params (s : State) (i : Instr) : (completed s i).params = s.params := by
  cases i <;> simp [completed, State.logical, State.setFirst]
@[simp] theorem completed_vl (s : State) (i : Instr) : (completed s i).vl = s.vl := by
  cases i <;> simp [completed, State.logical, State.setFirst]
@[simp] theorem completed_vtype (s : State) (i : Instr) : (completed s i).vtype = s.vtype := by
  cases i <;> simp [completed, State.logical, State.setFirst]
@[simp] theorem completed_trap (s : State) (i : Instr) : (completed s i).trap = s.trap := by
  cases i <;> simp [completed, State.logical, State.setFirst]
@[simp] theorem completed_mem (s : State) (i : Instr) : (completed s i).mem = s.mem := by
  cases i <;> simp [completed, State.logical, State.setFirst]
@[simp] theorem completed_pc (s : State) (i : Instr) : (completed s i).pc = s.nextPc := by
  cases i <;> simp [completed, State.logical, State.setFirst, State.nextPc]

/-- `vstart` stays in the six instructions that need it 0, and becomes 0 in the others (R20). -/
theorem completed_vstart (s : State) (i : Instr) :
    (completed s i).vstart = if needsVstartZero i then s.vstart else 0 := by
  cases i <;> simp [completed, State.logical, State.setFirst, needsVstartZero]

theorem exec_eq_attempt (i : Instr) (s : State) :
    exec i s = attempt i (reservedByLmul s i) (needsVstartZero i) (completed s i) s := by
  cases i <;> rfl

/-- What `exec` can do when it answers a next state. -/
theorem exec_next {i : Instr} {s t : State} (h : exec i s = .next t) :
    (t = completed s i ∧ s.illFormed = none ∧ staticReserved i = none ∧
        s.params.vectorEnabled = true ∧ s.vtype.vill = false ∧ reservedByLmul s i = none ∧
        (needsVstartZero i = true → s.vstart = 0)) ∨
      (raiseIllegal (encode i) s = .next t ∧ s.illFormed = none) := by
  rw [exec_eq_attempt] at h
  exact attempt_next h

end Sys2Proof.Machine
end

