-- ==== Sys2Proof/Laws/Memory.lean ====
section
/-! SUPPORT. Every operation on the program text keeps its canonical form. -/

namespace Sys2Proof.Machine

/-- The head of a canonical memory is below every later address. -/
theorem Memory.wf_cons (k : Nat) (b : Byte) (m : Memory) :
    Memory.wf ((k, b) :: m) = true ↔ Memory.wf m = true ∧ ∀ c ∈ m, k < c.1 := by
  induction m generalizing k b with
  | nil => simp [Memory.wf]
  | cons c rest ih =>
    obtain ⟨k', b'⟩ := c
    simp only [Memory.wf, Bool.and_eq_true, decide_eq_true_eq, List.mem_cons, forall_eq_or_imp]
    constructor
    · rintro ⟨hk, hw⟩
      exact ⟨hw, hk, fun c hc => lt_trans hk (((ih k' b').mp hw).2 c hc)⟩
    · rintro ⟨hw, hk, -⟩
      exact ⟨hk, hw⟩

/-- A write adds at most its own address. -/
theorem Memory.mem_write {a : Nat} {b : Byte} {m : Memory} {c : Host.Cell}
    (h : c ∈ m.write a b) : c = (a, b) ∨ c ∈ m := by
  induction m with
  | nil => exact .inl (by simpa [Memory.write] using h)
  | cons d rest ih =>
    obtain ⟨k, e⟩ := d
    simp only [Memory.write] at h
    split at h
    · simpa using h
    · split at h
      · rcases List.mem_cons.mp h with h | h
        · exact .inl h
        · exact .inr (List.mem_cons_of_mem _ h)
      · rcases List.mem_cons.mp h with h | h
        · exact .inr (by simp [h])
        · exact (ih h).imp_right (List.mem_cons_of_mem _)

/-- Placing a byte keeps the canonical form. -/
theorem Memory.write_wf (a : Nat) (b : Byte) (m : Memory) (h : m.wf = true) :
    (m.write a b).wf = true := by
  induction m with
  | nil => rfl
  | cons c rest ih =>
    obtain ⟨k, e⟩ := c
    obtain ⟨hr, hk⟩ := (Memory.wf_cons k e rest).mp h
    simp only [Memory.write]
    split
    · rename_i hlt
      refine (Memory.wf_cons a b _).mpr ⟨h, fun c hc => ?_⟩
      rcases List.mem_cons.mp hc with rfl | hc
      · exact hlt
      · exact lt_trans hlt (hk c hc)
    · split
      · rename_i heq
        subst heq
        exact (Memory.wf_cons a b rest).mpr ⟨hr, hk⟩
      · refine (Memory.wf_cons k e _).mpr ⟨ih hr, fun c hc => ?_⟩
        rcases Memory.mem_write hc with rfl | hc
        · simp only
          omega
        · exact hk c hc

/-- Placing bytes keeps the canonical form. -/
theorem Memory.writeBytes_wf (xl : XLen) (bytes : List Byte) (a : Nat) (m : Memory)
    (h : m.wf = true) : (m.writeBytes xl a bytes).wf = true := by
  induction bytes generalizing a m with
  | nil => exact h
  | cons b rest ih => exact ih (a + 1) _ (Memory.write_wf _ b m h)

/-- Placed bytes lie below 2^XLEN, wherever they start (R41). -/
theorem Memory.writeBytes_below (xl : XLen) (bytes : List Byte) (a : Nat) (m : Memory)
    (h : ∀ c ∈ m, c.1 < 2 ^ xlenBits xl) :
    ∀ c ∈ m.writeBytes xl a bytes, c.1 < 2 ^ xlenBits xl := by
  induction bytes generalizing a m with
  | nil => exact h
  | cons b rest ih =>
    refine ih (a + 1) _ fun c hc => ?_
    rcases Memory.mem_write hc with rfl | hc
    · exact Nat.mod_lt _ (Nat.two_pow_pos _)
    · exact h c hc

/-- Placing a program keeps the canonical form. -/
theorem Memory.writeProgram_wf (xl : XLen) (words : List InsnWord) (base : Nat) (m : Memory)
    (h : m.wf = true) : (m.writeProgram xl base words).wf = true := by
  induction words generalizing base m with
  | nil => exact h
  | cons w rest ih => exact ih (base + 4) _ (Memory.writeBytes_wf xl _ _ _ h)

/-- The launch of one instruction keeps the canonical form. -/
theorem State.withFetchWord_wf (s : State) (nbits w : Nat) (h : s.mem.wf = true) :
    (s.withFetchWord nbits w).mem.wf = true :=
  Memory.writeBytes_wf _ _ _ _ h

theorem State.reset_memory_wf : State.reset.mem.wf = true := rfl

end Sys2Proof.Machine
end

