-- ==== Sys2Proof/Laws/PerInstr.lean ====
section
/-! SUPPORT. Statements made per instruction: each instruction's word lies in its row of
spec/opcode_table.json. -/

namespace Sys2Proof.Laws.TableRow

/-- The `match` column of an instruction's row. -/
def tableMatch : Instr → InsnWord
  | .vmandnot .. => 0x60002057
  | .vmand .. => 0x64002057
  | .vmor .. => 0x68002057
  | .vmxor .. => 0x6C002057
  | .vmornot .. => 0x70002057
  | .vmnand .. => 0x74002057
  | .vmnor .. => 0x78002057
  | .vmxnor .. => 0x7C002057
  | .vpopc .. => 0x40082057
  | .vfirst .. => 0x4008A057
  | .vmsbf .. => 0x5000A057
  | .vmsof .. => 0x50012057
  | .vmsif .. => 0x5001A057
  | .viota .. => 0x50082057
  | .vid .. => 0x5008A057

/-- The `mask` column of an instruction's row. -/
def tableMask : Instr → InsnWord
  | .vmandnot .. | .vmand .. | .vmor .. | .vmxor .. | .vmornot .. | .vmnand .. | .vmnor ..
  | .vmxnor .. => 0xFC00707F
  | .vpopc .. | .vfirst .. | .vmsbf .. | .vmsof .. | .vmsif .. | .viota .. | .vid .. => 0xFC0FF07F

/-- The encoded word agrees with its row on every bit the row fixes (R55 to R57). -/
def Statement (i : Instr) : Prop := encode i &&& tableMask i = tableMatch i

/-- The bits of the common format under the two masks. -/
theorem assemble_and (f : BitVec 6) (vm : Bool) (a b c : RegNum) :
    assemble f vm a b c &&& 0xFC00707F = assemble f false 0 0 0 ∧
      assemble f vm a b c &&& 0xFC0FF07F = assemble f false 0 b 0 := by
  constructor <;>
  · apply BitVec.eq_of_getLsbD_eq
    intro k hk
    simp only [assemble, BitVec.getLsbD_and, BitVec.getLsbD_append]
    interval_cases k <;> simp

theorem vmandnot (a b c : RegNum) (vm : Bool) : Statement (.vmandnot a b c vm) :=
  (assemble_and _ vm b c a).1

theorem vmand (a b c : RegNum) (vm : Bool) : Statement (.vmand a b c vm) :=
  (assemble_and _ vm b c a).1

theorem vmor (a b c : RegNum) (vm : Bool) : Statement (.vmor a b c vm) :=
  (assemble_and _ vm b c a).1

theorem vmxor (a b c : RegNum) (vm : Bool) : Statement (.vmxor a b c vm) :=
  (assemble_and _ vm b c a).1

theorem vmornot (a b c : RegNum) (vm : Bool) : Statement (.vmornot a b c vm) :=
  (assemble_and _ vm b c a).1

theorem vmnand (a b c : RegNum) (vm : Bool) : Statement (.vmnand a b c vm) :=
  (assemble_and _ vm b c a).1

theorem vmnor (a b c : RegNum) (vm : Bool) : Statement (.vmnor a b c vm) :=
  (assemble_and _ vm b c a).1

theorem vmxnor (a b c : RegNum) (vm : Bool) : Statement (.vmxnor a b c vm) :=
  (assemble_and _ vm b c a).1

theorem vpopc (a b : RegNum) (vm : Bool) : Statement (.vpopc a b vm) :=
  (assemble_and _ vm b _ a).2

theorem vfirst (a b : RegNum) (vm : Bool) : Statement (.vfirst a b vm) :=
  (assemble_and _ vm b _ a).2

theorem vmsbf (a b : RegNum) (vm : Bool) : Statement (.vmsbf a b vm) :=
  (assemble_and _ vm b _ a).2

theorem vmsof (a b : RegNum) (vm : Bool) : Statement (.vmsof a b vm) :=
  (assemble_and _ vm b _ a).2

theorem vmsif (a b : RegNum) (vm : Bool) : Statement (.vmsif a b vm) :=
  (assemble_and _ vm b _ a).2

theorem viota (a b : RegNum) (vm : Bool) : Statement (.viota a b vm) :=
  (assemble_and _ vm b _ a).2

theorem vid (a b : RegNum) (vm : Bool) : Statement (.vid a b vm) :=
  (assemble_and _ vm b _ a).2

end Sys2Proof.Laws.TableRow
end

