-- ==== Sys2Proof/Machine/Assembler.lean ====
section
/-! DEFINITION. The assembler forms of the instructions (R59, R66) and the later names of three of
them. -/

namespace Sys2Proof.Machine

/-- The normative mnemonic, with its suffix (R2, R66; C4). -/
def mnemonic : Instr → String
  | .vmandnot .. => "vmandnot.mm"
  | .vmand .. => "vmand.mm"
  | .vmor .. => "vmor.mm"
  | .vmxor .. => "vmxor.mm"
  | .vmornot .. => "vmornot.mm"
  | .vmnand .. => "vmnand.mm"
  | .vmnor .. => "vmnor.mm"
  | .vmxnor .. => "vmxnor.mm"
  | .vpopc .. => "vpopc.m"
  | .vfirst .. => "vfirst.m"
  | .vmsbf .. => "vmsbf.m"
  | .vmsof .. => "vmsof.m"
  | .vmsif .. => "vmsif.m"
  | .viota .. => "viota.m"
  | .vid .. => "vid.v"

/-- The later name accepted for the same words (R66). -/
def laterName : Instr → Option String
  | .vpopc .. => some "vcpop.m"
  | .vmandnot .. => some "vmandn.mm"
  | .vmornot .. => some "vmorn.mm"
  | _ => none

def vName (r : RegNum) : String := "v" ++ toString r.toNat
def xName (r : RegNum) : String := "x" ++ toString r.toNat

/-- The trailing mask operand: absent with its comma when unmasked, else `v0.t` (R53, R66). -/
def maskOperand (vm : Bool) : String := if vm then "" else ", v0.t"

/-- Destination first, then `vs2` before `vs1` (R59); a masked logical instruction has no form. -/
def logicalForm (name : String) (vd vs2 vs1 : RegNum) (vm : Bool) : Option String :=
  if vm then some (name ++ " " ++ vName vd ++ ", " ++ vName vs2 ++ ", " ++ vName vs1) else none

/-- The form `name d, vs2, vm`. -/
def unaryForm (name d : String) (vs2 : RegNum) (vm : Bool) : Option String :=
  some (name ++ " " ++ d ++ ", " ++ vName vs2 ++ maskOperand vm)

/-- The assembler line of an instruction, none where R66 gives no form for it. -/
def assemblerForm (i : Instr) : Option String :=
  match i with
  | .vmandnot vd vs2 vs1 vm => logicalForm (mnemonic i) vd vs2 vs1 vm
  | .vmand vd vs2 vs1 vm => logicalForm (mnemonic i) vd vs2 vs1 vm
  | .vmor vd vs2 vs1 vm => logicalForm (mnemonic i) vd vs2 vs1 vm
  | .vmxor vd vs2 vs1 vm => logicalForm (mnemonic i) vd vs2 vs1 vm
  | .vmornot vd vs2 vs1 vm => logicalForm (mnemonic i) vd vs2 vs1 vm
  | .vmnand vd vs2 vs1 vm => logicalForm (mnemonic i) vd vs2 vs1 vm
  | .vmnor vd vs2 vs1 vm => logicalForm (mnemonic i) vd vs2 vs1 vm
  | .vmxnor vd vs2 vs1 vm => logicalForm (mnemonic i) vd vs2 vs1 vm
  | .vpopc rd vs2 vm => unaryForm (mnemonic i) (xName rd) vs2 vm
  | .vfirst rd vs2 vm => unaryForm (mnemonic i) (xName rd) vs2 vm
  | .vmsbf vd vs2 vm => unaryForm (mnemonic i) (vName vd) vs2 vm
  | .vmsof vd vs2 vm => unaryForm (mnemonic i) (vName vd) vs2 vm
  | .vmsif vd vs2 vm => unaryForm (mnemonic i) (vName vd) vs2 vm
  | .viota vd vs2 vm => unaryForm (mnemonic i) (vName vd) vs2 vm
  | .vid vd vs2 vm =>
    if vs2 = 0 then some (mnemonic i ++ " " ++ vName vd ++ maskOperand vm) else none

/-- The assembler line of a pseudoinstruction (R78 to R82). -/
def pseudoForm : Pseudo → String
  | .vmmv vd vs => "vmmv.m " ++ vName vd ++ ", " ++ vName vs
  | .vmclr vd => "vmclr.m " ++ vName vd
  | .vmset vd => "vmset.m " ++ vName vd
  | .vmnot vd vs => "vmnot.m " ++ vName vd ++ ", " ++ vName vs
  | .vmcpy vd vs => "vmcpy.m " ++ vName vd ++ ", " ++ vName vs

end Sys2Proof.Machine
end

