-- ==== Sys2Proof/Tests/Slice0.lean ====
section
/-! SUPPORT. Small tests, their expected results from 95_test_vectors.md (the vector is named at each),
and witnesses that the hypotheses of the obligations can be met. -/

namespace Sys2Proof.Tests

open Sys2Proof.Machine Sys2Proof.Claims

/-! ### Small states -/

/-- The defaults of 95_test_vectors.md: XLEN = 64, VLEN = 128, SEW = 8, LMUL = 1, nothing agnostic. -/
def conf (vl vstart : Nat) : State :=
  { State.reset with
    vtype := { vill := false, vma := false, vta := false, vsew := 0, vlmul := 0 }
    vl := vl
    vstart := vstart }

/-- A vector register's value as a number, placed in a state. -/
def put (n : RegNum) (value : Nat) (s : State) : State :=
  s.writeV n ((List.range s.params.vlen).map value.testBit)

/-- SEW and LMUL by their `vtype` fields. -/
def config (vsew vlmul : BitVec 3) (s : State) : State :=
  { s with vtype := { s.vtype with vsew := vsew, vlmul := vlmul } }

/-- The low `k` bits of a vector register as a number. -/
def low (s : State) (n : RegNum) (k : Nat) : Nat := natOfBits ((s.readV n).take k)

def after (o : Host.Outcome State Fault Refusal) : Option State :=
  match o with
  | .next t => some t
  | _ => none

def faultOf (o : Host.Outcome State Fault Refusal) : Option Fault :=
  match o with
  | .fault f => some f
  | _ => none

def refusalOf (o : Host.Outcome State Fault Refusal) : Option Refusal :=
  match o with
  | .refused r => some r
  | _ => none

/-- The low `k` bits of `vn` after an instruction. -/
def lowAfter (i : Instr) (s : State) (n : RegNum) (k : Nat) : Option Nat :=
  (after (exec i s)).map fun t => low t n k

/-- `x[r]` after an instruction. -/
def xAfter (i : Instr) (s : State) (r : RegNum) : Option XWord :=
  (after (exec i s)).map fun t => t.readX r

/-! ### Well-formed instructions: an ill-formed term for each check -/

theorem test_wellFormed_legal : (Instr.vmand 1 2 3 true).WellFormed := by decide
theorem test_illFormed_logical_masked : ¬(Instr.vmand 1 2 3 false).WellFormed := by decide
theorem test_illFormed_overlap : ¬(Instr.vmsbf 3 3 true).WellFormed := by decide
theorem test_illFormed_masked_v0 : ¬(Instr.vmsbf 0 3 false).WellFormed := by decide
theorem test_illFormed_vid_source : ¬(Instr.vid 4 1 true).WellFormed := by decide
theorem test_illFormed_vid_masked_v0 : ¬(Instr.vid 0 0 false).WellFormed := by decide

/-! ### Decoding: words written out from R52 and R55 to R57 -/

/-- T3: 011000 1 00010 00011 010 00001 1010111. -/
theorem test_decode_vmandnot :
    decode 0b01100010001000011010000011010111 = .instr (.vmandnot 1 2 3 true) := by decide
/-- T1: 011001 1 00010 00011 010 00001 1010111. -/
theorem test_decode_vmand :
    decode 0b01100110001000011010000011010111 = .instr (.vmand 1 2 3 true) := by decide
/-- T5: 011010 1 00010 00011 010 00001 1010111. -/
theorem test_decode_vmor :
    decode 0b01101010001000011010000011010111 = .instr (.vmor 1 2 3 true) := by decide
/-- T4: 011011 1 00010 00011 010 00001 1010111. -/
theorem test_decode_vmxor :
    decode 0b01101110001000011010000011010111 = .instr (.vmxor 1 2 3 true) := by decide
/-- T7: 011100 1 00010 00011 010 00001 1010111. -/
theorem test_decode_vmornot :
    decode 0b01110010001000011010000011010111 = .instr (.vmornot 1 2 3 true) := by decide
/-- T2: 011101 1 00010 00011 010 00001 1010111. -/
theorem test_decode_vmnand :
    decode 0b01110110001000011010000011010111 = .instr (.vmnand 1 2 3 true) := by decide
/-- T6: 011110 1 00010 00011 010 00001 1010111. -/
theorem test_decode_vmnor :
    decode 0b01111010001000011010000011010111 = .instr (.vmnor 1 2 3 true) := by decide
/-- T8: 011111 1 00010 00011 010 00001 1010111. -/
theorem test_decode_vmxnor :
    decode 0b01111110001000011010000011010111 = .instr (.vmxnor 1 2 3 true) := by decide
/-- T13: 010000 0 00011 10000 010 01010 1010111. -/
theorem test_decode_vpopc :
    decode 0b01000000001110000010010101010111 = .instr (.vpopc 10 3 false) := by decide
/-- T93: 010000 1 00011 10001 010 01011 1010111. -/
theorem test_decode_vfirst :
    decode 0b01000010001110001010010111010111 = .instr (.vfirst 11 3 true) := by decide
/-- T94: 010100 1 00011 00001 010 00010 1010111. -/
theorem test_decode_vmsbf :
    decode 0b01010010001100001010000101010111 = .instr (.vmsbf 2 3 true) := by decide
/-- T95: 010100 1 00011 00010 010 00010 1010111. -/
theorem test_decode_vmsof :
    decode 0b01010010001100010010000101010111 = .instr (.vmsof 2 3 true) := by decide
/-- T96: 010100 1 00011 00011 010 00010 1010111. -/
theorem test_decode_vmsif :
    decode 0b01010010001100011010000101010111 = .instr (.vmsif 2 3 true) := by decide
/-- S13: 010100 0 00010 10000 010 00100 1010111. -/
theorem test_decode_viota :
    decode 0b01010000001010000010001001010111 = .instr (.viota 4 2 false) := by decide
/-- T98: 010100 1 00000 10001 010 01100 1010111. -/
theorem test_decode_vid :
    decode 0b01010010000010001010011001010111 = .instr (.vid 12 0 true) := by decide
/-- T99 to T103. -/
theorem test_decode_not_in_spec :
    decode 0x42202557 = .notInSpec .scalarSubOpcode ∧ decode 0x52302157 = .notInSpec .unarySubOpcode ∧
      decode 0x52322157 = .notInSpec .unarySubOpcode ∧ decode 0x662180D7 = .notInSpec .funct3 ∧
      decode 0x00000013 = .notInSpec .opcode := by decide
/-- P1, first row: the bytes `57 A1 30 52`. -/
theorem test_decode_bytes :
    decodeBytes [0x57, 0xA1, 0x30, 0x52, 0x99] = .instr (.vmsbf 2 3 true) [0x99] := by decide
theorem test_decode_table_word : decodeTableWord 32 0x40082057 = some (.vpopc 0 0 false) := by decide
/-- R78 to R82, examples. -/
theorem test_pseudo_words :
    encode (Pseudo.vmmv 4 3).expand = 0x6631A257 ∧ encode (Pseudo.vmclr 2).expand = 0x6E212157 ∧
      encode (Pseudo.vmset 1).expand = 0x7E10A0D7 ∧ encode (Pseudo.vmnot 3 0).expand = 0x760021D7 ∧
      encode (Pseudo.vmcpy 4 3).expand = 0x6631A257 := by decide
/-- R66. -/
theorem test_assembler_forms :
    assemblerForm (.vpopc 10 3 false) = some "vpopc.m x10, v3, v0.t" ∧
      assemblerForm (.vmandnot 5 4 0 true) = some "vmandnot.mm v5, v4, v0" ∧
      assemblerForm (.vid 12 0 true) = some "vid.v v12" := by decide

/-! ### Logical instructions: section 2.1, `v2 = 0x94`, `v3 = 0xC3`, `vl = 8`; T9, T9b -/

def logicalStart : State := put 2 0x94 (put 3 0xC3 (conf 8 0))
def logicalLate : State := put 1 0x3 (put 2 0xC (put 3 0xA (conf 4 2)))

theorem test_vmandnot : lowAfter (.vmandnot 1 2 3 true) logicalStart 1 8 = some 0x14 := by decide
theorem test_vmand : lowAfter (.vmand 1 2 3 true) logicalStart 1 8 = some 0x80 := by decide
theorem test_vmor : lowAfter (.vmor 1 2 3 true) logicalStart 1 8 = some 0xD7 := by decide
theorem test_vmxor : lowAfter (.vmxor 1 2 3 true) logicalStart 1 8 = some 0x57 := by decide
theorem test_vmornot : lowAfter (.vmornot 1 2 3 true) logicalStart 1 8 = some 0xBC := by decide
theorem test_vmnand : lowAfter (.vmnand 1 2 3 true) logicalStart 1 8 = some 0x7F := by decide
theorem test_vmnor : lowAfter (.vmnor 1 2 3 true) logicalStart 1 8 = some 0x28 := by decide
theorem test_vmxnor : lowAfter (.vmxnor 1 2 3 true) logicalStart 1 8 = some 0xA8 := by decide
theorem test_vmandnot_vstart : lowAfter (.vmandnot 1 2 3 true) logicalLate 1 4 = some 0x7 := by decide
theorem test_vmand_vstart : lowAfter (.vmand 1 2 3 true) logicalLate 1 4 = some 0xB := by decide
theorem test_vmor_vstart : lowAfter (.vmor 1 2 3 true) logicalLate 1 4 = some 0xF := by decide
theorem test_vmxor_vstart : lowAfter (.vmxor 1 2 3 true) logicalLate 1 4 = some 0x7 := by decide
theorem test_vmornot_vstart : lowAfter (.vmornot 1 2 3 true) logicalLate 1 4 = some 0xF := by decide
theorem test_vmnand_vstart : lowAfter (.vmnand 1 2 3 true) logicalLate 1 4 = some 0x7 := by decide
theorem test_vmnor_vstart : lowAfter (.vmnor 1 2 3 true) logicalLate 1 4 = some 0x3 := by decide
theorem test_vmxnor_vstart : lowAfter (.vmxnor 1 2 3 true) logicalLate 1 4 = some 0xB := by decide

/-! ### Scalar results -/

/-- T13. -/
theorem test_vpopc_masked :
    xAfter (.vpopc 10 3 false) (put 0 0xC3 (put 3 0x94 (conf 8 0))) 10 = some 1 := by decide
/-- T15: element 7 is tail. -/
theorem test_vpopc_tail : xAfter (.vpopc 10 3 true) (put 3 0x94 (conf 5 0)) 10 = some 2 := by decide
/-- T21. -/
theorem test_vfirst_masked :
    xAfter (.vfirst 11 3 false) (put 0 0xC3 (put 3 0x94 (conf 8 0))) 11 = some 7 := by decide
/-- T22 at XLEN = 32: the 32-bit all-ones value. -/
theorem test_vfirst_none_rv32 :
    xAfter (.vfirst 11 3 true)
      { conf 8 0 with params := { State.reset.params with xlen := .rv32 } } 11 =
      some 0xFFFFFFFF := by decide
/-- T19: the fault, `vstart` non-zero. -/
theorem test_vpopc_vstart_faults :
    faultOf (exec (.vpopc 10 3 true) (conf 8 1)) = some (.illegalInstruction 0 0x42382557) := by
  decide

/-! ### Set-first instructions -/

def setFirstStart : State := put 0 0xC3 (put 2 0x3C (put 3 0x94 (conf 8 0)))

/-- S5 with `vma = 0`. -/
theorem test_vmsbf_masked : lowAfter (.vmsbf 2 3 false) setFirstStart 2 8 = some 0x7F := by decide
/-- S3: the first element is set. -/
theorem test_vmsbf_first_zero :
    lowAfter (.vmsbf 2 3 true) (put 3 0x95 (conf 8 0)) 2 8 = some 0x00 := by decide
/-- S8 with `vma = 0`. -/
theorem test_vmsif_masked : lowAfter (.vmsif 2 3 false) setFirstStart 2 8 = some 0xFF := by decide
/-- T32: no element set. -/
theorem test_vmsif_none : lowAfter (.vmsif 2 3 true) (conf 8 0) 2 8 = some 0xFF := by decide
/-- S11 with `vma = 0`. -/
theorem test_vmsof_masked :
    lowAfter (.vmsof 2 3 false) (put 3 0xD4 setFirstStart) 2 8 = some 0x7C := by decide
/-- T33: no element set. -/
theorem test_vmsof_none : lowAfter (.vmsof 2 3 true) (conf 8 0) 2 8 = some 0x00 := by decide
/-- T45: the reserved check comes before the `vstart` check. -/
theorem test_vmsbf_reserved_first :
    refusalOf (exec (.vmsbf 3 3 true) (conf 8 4)) =
      some (.reserved .destOverlapsSource 0x5230A1D7) := by decide

/-! ### Element results -/

def old4 : Nat := 0x0203040506070809

/-- S13: masked, inactive elements kept. -/
theorem test_viota_masked :
    lowAfter (.viota 4 2 false) (put 0 0xEB (put 2 0x91 (put 4 old4 (conf 8 0)))) 4 64 =
      some 0x0101010501070100 := by decide
set_option maxRecDepth 4000 in
/-- T53: SEW = 32, LMUL = 2; the second register of the group. -/
theorem test_viota_group :
    lowAfter (.viota 4 2 true) (put 2 0x91 (config 2 1 (conf 8 0))) 5 128 =
      some 0x00000002000000020000000200000001 := by decide
/-- T63: the group contains the source. -/
theorem test_viota_overlap :
    refusalOf (exec (.viota 2 3 true) (config 0 1 (conf 8 0))) =
      some (.reserved .groupOverlapsSource 0x52382157) := by decide
set_option maxRecDepth 4000 in
/-- T67: LMUL = 1/2, the rest of the register is tail. -/
theorem test_viota_fractional_lmul :
    lowAfter (.viota 4 2 true) (put 2 0x91 (put 4 (2 ^ 128 - 1) (config 0 7 (conf 8 0)))) 4 128 =
      some 0xFFFFFFFFFFFFFFFF0202020101010100 := by decide
/-- T75: prestart elements kept. -/
theorem test_vid_vstart :
    lowAfter (.vid 4 0 true) (put 4 0xEEEEEEEEEEEEEEEE (conf 8 3)) 4 64 =
      some 0x0706050403EEEEEE := by decide
set_option maxRecDepth 4000 in
/-- T72: the index within the group. -/
theorem test_vid_group :
    lowAfter (.vid 4 0 true) (config 2 1 (conf 8 0)) 5 128 =
      some 0x00000007000000060000000500000004 := by decide
/-- T82: the group is not aligned. -/
theorem test_vid_misaligned :
    refusalOf (exec (.vid 3 0 true) (config 0 1 (conf 8 0))) =
      some (.reserved .groupMisaligned 0x5208A1D7) := by decide

/-! ### Steps and the exception -/

/-- R142, R34: from reset, `vill = 1`, an instruction faults until a configuration is given; the launch
gives one. -/
theorem test_reset_vill :
    faultOf (exec (.vpopc 10 3 true) State.reset) = some (.illegalInstruction 0 0x42382557) := by
  decide
/-- The next step after the launch of T12's word runs it. -/
theorem test_launch_runs :
    (after (step (State.reset.withFetchWord 32 0x42382557))).map (fun t => (t.pc, t.readX 10)) =
      some (4, 0) := by decide
/-- R42: nothing placed. -/
theorem test_stuck : faultOf (step (conf 8 0)) = some (.stuckOutsideProgram 0) := by decide
/-- R127: the machine-mode entry of T19's exception. -/
theorem test_machine_trap :
    (after (exec (.vpopc 10 3 true)
      { conf 8 1 with
        params := { State.reset.params with trapEntry := .machineMode }
        trap := { State.reset.trap with mtvec := 0x101 } })).map
      (fun t => (t.pc, t.trap.mepc, t.trap.mcause, t.trap.mtval, t.vstart)) =
      some (0x100, 0, 2, 0x42382557, 1) := by decide
/-- R41, R13, XLEN = 32: the word after the last one of the address space is at address 0. -/
def wrapStart : State :=
  let s : State := { conf 8 0 with
    params := { State.reset.params with xlen := .rv32 }
    pc := 0xFFFFFFFC }
  s.setMem (s.mem.writeProgram .rv32 0xFFFFFFFC [0x42382557, 0x4238A5D7])
theorem test_program_wraps :
    wrapStart.mem.read 0 = some 0xD7 ∧ wrapStart.Loaded 0xFFFFFFFC [0x42382557, 0x4238A5D7] := by
  decide
theorem test_pc_wraps :
    (after (step wrapStart)).map (fun t => (t.pc, decide (t.Finished 0xFFFFFFFC 1))) =
      some (0, true) := by decide
/-- R23: with `vill = 1` every other field reads 0. -/
theorem test_vtype_vill :
    State.readCsr { conf 0 0 with vtype := ⟨true, true, true, 2, 1⟩ } 0xC21 =
      some 0x8000000000000000 := by decide
/-- R23: `e32, m2, tu, ma` read by number. -/
theorem test_vtype_word :
    State.readCsr { conf 0 0 with vtype := ⟨false, true, false, 2, 1⟩ } 0xC21 = some 0x91 := by decide

/-! ### Witnesses: the hypotheses of the obligations can be met, clause by clause -/

/-- Everything agnostic. -/
def agnostic (s : State) : State := { s with vtype := { s.vtype with vma := true, vta := true } }

/-- The machine-mode trap entry present. -/
def trapping (s : State) : State := { s with params := { s.params with trapEntry := .machineMode } }

/-- The platform's own trap entry present. -/
def platformed (s : State) : State := { s with params := { s.params with trapEntry := .platform } }

/-- The vector unit off. -/
def unitOff (s : State) : State := { s with params := { s.params with vectorEnabled := false } }

theorem next_of_after {o : Host.Outcome State Fault Refusal} (h : (after o).isSome = true) :
    ∃ t, o = .next t := by
  cases o with
  | next t => exact ⟨t, rfl⟩
  | fault f => cases h
  | refused r => cases h

/-- The shared hypothesis of the rules: a well-formed state, at the largest `vstart`, at `vl = VLMAX`,
and at `vl = 0`. -/
theorem witness_well_formed :
    (conf 8 127).illFormed = none ∧ (conf 16 0).illFormed = none ∧ (conf 0 0).illFormed = none := by
  decide

/-- `LogicalRule` (the eight `Vm…` obligations), ready: `vstart` and `vl` inside one register. -/
theorem witness_logical_completes :
    (conf 8 2).illFormed = none ∧ (conf 8 2).params.vectorEnabled = true ∧
      (conf 8 2).vtype.vill = false ∧ (conf 8 2).vstart = 2 ∧ (conf 8 2).vl = 8 := by decide
/-- `LogicalRule`, `vm = 0`: the state needs only to be well formed. -/
theorem witness_logical_masked :
    (conf 8 2).illFormed = none ∧ staticReserved (.vmand 1 2 3 false) = some .logicalMasked := by
  decide
/-- `vill = 1`: `LogicalRule`, `SetFirstRule`, the scalar results, `viota.m`, `vid.v`. -/
theorem witness_vill :
    State.reset.illFormed = none ∧ State.reset.vtype.vill = true ∧
      (Instr.vmand 1 2 3 true).WellFormed ∧ (Instr.viota 4 2 false).WellFormed := by decide
/-- `EightLogicalsGiveSixteenFunctions`, `PseudoinstructionsAct`: both ends of the body. -/
theorem witness_sixteen_functions :
    (conf 8 2).Ready ∧ (conf 8 2).vstart ≤ 2 ∧ 2 < (conf 8 2).vl ∧ (conf 8 2).vstart ≤ 7 ∧
      7 < (conf 8 2).vl ∧ sixteenFunctions.length = 16 := by decide
theorem witness_logicals_ignore_sew :
    (conf 8 2).Ready ∧ State.Ready { conf 8 2 with vtype := ⟨false, true, true, 2, 1⟩ } := by decide

/-- `VpopcCountsActiveSetElements`, `VfirstFindsLowestOrMinusOne`: a non-zero `vstart`. -/
theorem witness_scalar_vstart : (conf 8 1).illFormed = none ∧ (conf 8 1).vstart ≠ 0 := by decide
/-- The same, completing; `ScalarResultToX0IsDiscarded`, first clause. -/
theorem witness_scalar_completes :
    (conf 8 0).illFormed = none ∧ (conf 8 0).params.vectorEnabled = true ∧
      (conf 8 0).vtype.vill = false ∧ (conf 8 0).vstart = 0 ∧ (10 : RegNum) ≠ 0 := by decide
/-- `VfirstFindsLowestOrMinusOne`, `SetFirstRule`: a first set active element, the lowest and a masked
one. -/
theorem witness_first :
    IsFirst (put 3 0x95 (conf 8 0)) 3 true 0 ∧
      IsFirst (put 0 0xC3 (put 3 0x94 (conf 8 0))) 3 false 7 := by
  unfold IsFirst Enabled
  decide
/-- The same: none, by an empty source and by `vl = 0`. -/
theorem witness_none : NoFirst (conf 8 0) 3 true ∧ NoFirst (put 3 0x95 (conf 0 0)) 3 true := by
  unfold NoFirst Enabled
  decide
theorem witness_negative_result : (conf 8 0).Ready ∧ (conf 8 0).vstart = 0 ∧ (11 : RegNum) ≠ 0 := by
  decide
theorem witness_scalar_to_x0 :
    (conf 8 0).Ready ∧ (conf 8 0).vstart = 0 ∧ (conf 8 127).Ready ∧ (conf 8 127).vstart ≠ 0 := by decide
/-- `ScalarResultsReadOnlyActiveBody`: `v3` differs at an inactive and at a tail element, `v0` at a
tail element. -/
theorem witness_scalar_reads :
    let s := put 0 0xC3 (put 3 0x94 (conf 8 0))
    let v := (put 0 0x1C3 (put 3 0x190 (conf 8 0))).v
    s.Ready ∧ s.vstart = 0 ∧ v ≠ s.v ∧
      (∀ i < s.vl, false = true ∨ State.maskBit { s with v := v } 0 i = s.maskBit 0 i) ∧
      ∀ i < s.vl, Enabled s false i → State.maskBit { s with v := v } 3 i = s.maskBit 3 i := by
  unfold Enabled
  decide

/-- `SetFirstRule`: the two overlaps, and the two causes of the exception. -/
theorem witness_set_first_stops :
    (conf 8 0).illFormed = none ∧ (0 : RegNum) ≠ 3 ∧ (2 : RegNum) ≠ 3 ∧ (2 : RegNum) ≠ 0 ∧
      State.reset.vtype.vill = true ∧ (conf 8 127).illFormed = none ∧ (conf 8 127).vstart ≠ 0 := by
  decide
/-- `SetFirstRule`, `SetFirstResultsRelate`, completing masked: element 1 active, element 2 inactive,
for both values of `vma`. -/
theorem witness_set_first_completes :
    setFirstStart.Ready ∧ setFirstStart.vstart = 0 ∧ setFirstStart.vtype.vma = false ∧
      (agnostic setFirstStart).Ready ∧ (agnostic setFirstStart).vtype.vma = true ∧
      Enabled setFirstStart false 1 ∧ ¬Enabled setFirstStart false 2 ∧ 2 < setFirstStart.vl ∧
      (2 : RegNum) ≠ 3 ∧ (2 : RegNum) ≠ 0 := by
  unfold Enabled
  decide
/-- `PopcOfVmsbfIsVfirst`: with a set element and with none. -/
theorem witness_popc_of_vmsbf :
    (put 3 0x94 (conf 8 0)).Ready ∧ ¬NoFirst (put 3 0x94 (conf 8 0)) 3 true ∧
      (conf 8 0).Ready ∧ NoFirst (conf 8 0) 3 true ∧ (conf 8 0).vstart = 0 ∧ (2 : RegNum) ≠ 3 ∧
      (10 : RegNum) ≠ 0 := by
  unfold NoFirst Enabled
  decide

/-- `ViotaWritesPrefixCounts`: the overlaps, alignment, and `vstart`, at LMUL = 2. -/
theorem witness_viota_stops :
    let s := config 2 1 (conf 8 0)
    let late := config 2 1 (conf 8 127)
    s.Ready ∧ (0 : RegNum) ≠ 2 ∧ ¬GroupAligned s 5 ∧ GroupAligned s 2 ∧ InGroup s 2 3 ∧
      late.Ready ∧ late.vstart ≠ 0 ∧ GroupAligned late 4 ∧ ¬InGroup late 4 2 := by
  unfold GroupAligned InGroup
  decide
/-- `ViotaWritesPrefixCounts`, completing at LMUL = 2 and SEW = 32: eight elements, elements 6 and 7
tail, element 2 inactive, for both values of `vma` and `vta`. -/
theorem witness_viota_completes :
    let s := put 0 0xEB (config 2 1 (conf 6 0))
    s.Ready ∧ s.vstart = 0 ∧ GroupAligned s 4 ∧ ¬InGroup s 4 2 ∧ s.groupElements = 8 ∧
      Enabled s false 1 ∧ ¬Enabled s false 2 ∧ s.vl = 6 ∧ s.vtype.vma = false ∧
      s.vtype.vta = false ∧ (agnostic s).Ready ∧ GroupAligned (agnostic s) 4 ∧
      (agnostic s).vtype.vma = true ∧ (agnostic s).vtype.vta = true := by
  unfold GroupAligned InGroup Enabled
  decide
/-- `VidWritesElementIndices`: the source field, masked `v0`, and alignment. -/
theorem witness_vid_stops :
    (config 0 1 (conf 8 0)).Ready ∧ (1 : RegNum) ≠ 0 ∧ ¬GroupAligned (config 0 1 (conf 8 0)) 3 := by
  unfold GroupAligned
  decide
/-- `VidWritesElementIndices`, completing with prestart elements. -/
theorem witness_vid_completes :
    (config 2 1 (conf 8 3)).Ready ∧ GroupAligned (config 2 1 (conf 8 3)) 4 ∧
      (config 2 1 (conf 8 3)).vstart = 3 := by
  unfold GroupAligned
  decide
theorem witness_viota_steps :
    let s := put 2 0x91 (config 2 1 (conf 8 0))
    s.Ready ∧ s.vstart = 0 ∧ (4 : RegNum) ≠ 2 ∧ GroupAligned s 4 ∧ ¬InGroup s 4 2 ∧
      (10 : RegNum) ≠ 0 ∧ 0 + 1 < s.vl ∧ 7 + 1 = s.vl := by
  unfold GroupAligned InGroup
  decide
theorem witness_vid_is_viota :
    let s := put 2 0xFF (conf 8 0)
    s.Ready ∧ s.vstart = 0 ∧ (4 : RegNum) ≠ 2 ∧ GroupAligned s 4 ∧ ¬InGroup s 4 2 ∧
      ∀ i < s.vl, s.maskBit 2 i = true := by
  unfold GroupAligned InGroup
  decide

/-- `ElementAndMaskViewsAlias`: bit 31 of element 4 of the pair at `v4` is in `v5`. -/
theorem witness_views_alias :
    let s := config 2 1 (conf 8 0)
    s.illFormed = none ∧ s.vtype.vill = false ∧ 31 < s.vtype.sew ∧
      (5 : RegNum).toNat = (4 : RegNum).toNat + 4 * s.vtype.sew / s.params.vlen := by decide
/-- `DerivedQuantitiesOfLegalVtype`: LMUL = 8, 1 and 1/8. -/
theorem witness_derived_quantities :
    let p := State.reset.params
    paramsOk p = true ∧ VType.legal ⟨false, false, false, 3, 3⟩ p = true ∧
      VType.legal ⟨false, false, false, 0, 0⟩ p = true ∧
      VType.legal ⟨false, false, false, 0, 5⟩ p = true := by decide
/-- `CsrViewsFollowTheirLayout`: both values of `vill`; bit 62 is one of the others at XLEN = 64. -/
theorem witness_csr_views :
    (conf 8 2).illFormed = none ∧ (conf 8 2).vtype.vill = false ∧ State.reset.illFormed = none ∧
      State.reset.vtype.vill = true ∧ 62 ≠ xlenBits State.reset.params.xlen - 1 := by decide
/-- `PcAdvancesModuloXlen`, `NoInstructionWritesVlOrVtype`, `ScalarResultFrame`. -/
theorem witness_exec_next :
    (∃ t, exec (.vpopc 10 3 true) (conf 8 0) = .next t) ∧
      (∃ t, exec (.vfirst 10 3 true) (conf 8 0) = .next t) ∧
      (conf 8 0).params.trapEntry = .absent :=
  ⟨next_of_after (by decide), next_of_after (by decide), rfl⟩
/-- `OnlyScalarResultsWriteX`: a register that changes, a fault, a refusal, and `vl = 0`. -/
theorem witness_only_scalar_results :
    (xAfter (.vpopc 10 3 true) (put 3 0x94 (conf 8 0)) 10).isSome = true ∧
      xAfter (.vpopc 10 3 true) (put 3 0x94 (conf 8 0)) 10 ≠ some 0 ∧
      (put 3 0x94 (conf 8 0)).readX 10 = 0 ∧
      (faultOf (exec (.vpopc 10 3 true) (conf 8 1))).isSome = true ∧
      (refusalOf (exec (.vmsbf 3 3 true) (conf 8 0))).isSome = true ∧
      (conf 0 0).Ready ∧ (conf 0 0).vstart = 0 ∧ (conf 0 0).vl = 0 := by decide
/-- `LogicalFrame`: by its effect, and by the trap entry. -/
theorem witness_logical_frame :
    (∃ t, exec (.vmand 1 2 3 true) (conf 8 2) = .next t) ∧
      ∃ t, exec (.vmand 1 2 3 true) (trapping State.reset) = .next t :=
  ⟨next_of_after (by decide), next_of_after (by decide)⟩
/-- `SetFirstFrame`. -/
theorem witness_set_first_frame :
    (∃ t, exec (.vmsbf 2 3 false) setFirstStart = .next t) ∧
      ∃ t, exec (.vmsbf 2 3 false) (trapping (conf 8 1)) = .next t :=
  ⟨next_of_after (by decide), next_of_after (by decide)⟩
/-- `ElementResultFrame`. -/
theorem witness_element_frame :
    (∃ t, exec (.viota 4 2 true) (config 2 1 (conf 8 0)) = .next t) ∧
      ∃ t, exec (.vid 4 0 true) (config 2 1 (conf 8 3)) = .next t :=
  ⟨next_of_after (by decide), next_of_after (by decide)⟩

/-- `ReservedBehaviourDecides`: both behaviours. -/
theorem witness_reserved_behaviour :
    let s := { conf 8 0 with
      params := { State.reset.params with reservedBehaviour := .illegalInstruction } }
    (conf 8 0).illFormed = none ∧ (conf 8 0).params.reservedBehaviour = .refuse ∧
      s.illFormed = none ∧ s.params.reservedBehaviour = .illegalInstruction ∧
      staticReserved (.vmsbf 3 3 true) = some .destOverlapsSource := by decide
/-- `SourceNamedReservedEncodings`, second clause. -/
theorem witness_vid_source_field : (31 : RegNum) ≠ 0 := by decide
/-- `OverlapIsReserved`, last clause: both ends of the group; masked at `v0`; and outside the group,
with a zero and a non-zero `vstart`. -/
theorem witness_overlap :
    let s := config 0 1 (conf 8 0)
    let late := config 0 1 (conf 8 1)
    s.Ready ∧ GroupAligned s 2 ∧ InGroup s 2 2 ∧ InGroup s 2 3 ∧ ¬InGroup s 2 4 ∧
      GroupAligned s 0 ∧ ¬InGroup s 0 2 ∧ (2 : RegNum) ≠ 0 ∧ s.vstart = 0 ∧ late.Ready ∧
      GroupAligned late 2 ∧ ¬InGroup late 2 4 ∧ late.vstart ≠ 0 := by
  unfold GroupAligned InGroup
  decide
theorem witness_misaligned :
    (config 0 1 (conf 8 0)).Ready ∧ ¬GroupAligned (config 0 1 (conf 8 0)) 3 ∧
      staticReserved (.viota 3 6 true) = none ∧ staticReserved (.vid 3 0 true) = none := by
  unfold GroupAligned
  decide
/-- `VillOrDisabledUnitRaises`, second cause (the first: `witness_vill`). -/
theorem witness_unit_off :
    (unitOff (conf 8 0)).illFormed = none ∧ (unitOff (conf 8 0)).params.vectorEnabled = false ∧
      (Instr.vpopc 10 3 true).WellFormed := by decide
theorem witness_nonzero_vstart :
    (conf 8 1).Ready ∧ (conf 8 1).vstart ≠ 0 ∧ (Instr.vmsbf 4 2 true).WellFormed ∧
      (Instr.viota 4 2 true).WellFormed ∧ (Instr.vid 4 0 true).WellFormed ∧
      GroupAligned (conf 8 1) 4 ∧ ¬InGroup (conf 8 1) 4 2 := by
  unfold GroupAligned InGroup
  decide
/-- `IllegalInstructionOutcome`: the three entries. -/
theorem witness_trap_entries :
    State.reset.params.trapEntry = .absent ∧
      (trapping State.reset).params.trapEntry = .machineMode ∧
      (platformed State.reset).params.trapEntry = .platform := by decide
/-- The platform's entry continues a raised exception and keeps the vector registers and `vstart`
(R127). -/
theorem test_platform_trap :
    let s := platformed (conf 8 1)
    ∃ t, exec (.vpopc 10 3 true) s = .next t ∧ t.v = s.v ∧ t.vstart = 1 :=
  ⟨_, rfl, rfl, rfl⟩

/-- `WellFormednessIsKept`: an ill-formed state for each check of R35. -/
theorem witness_ill_formed :
    State.illFormed { conf 8 0 with params := { State.reset.params with vlen := 100 } } =
        some .parameters ∧
      State.illFormed { conf 8 0 with
        params := { State.reset.params with xlen := .rv32 }
        pc := 0x100000000 } = some .pcRange ∧
      State.illFormed { conf 8 0 with pc := 2 } = some .misalignedPc ∧
      (conf 8 128).illFormed = some .vstartRange ∧
      (config 4 0 (conf 8 0)).illFormed = some .vtypeIllegal ∧
      (config 0 4 (conf 8 0)).illFormed = some .vtypeIllegal ∧
      (conf 17 0).illFormed = some .vlRange := by decide
/-- `WellFormedMeansRuleR35`. -/
theorem witness_vill_clear : (conf 8 0).vtype.vill = false := rfl

/-- T12's word placed for the next step. -/
def launched : State := (conf 8 0).withFetchWord 32 0x42382557

/-- `WellFormednessIsKept`, `NoStepWritesProgram`, `StepKeepsInvariant`: a step. -/
theorem witness_step_next : ∃ t, step launched = .next t := next_of_after (by decide)
/-- `StepKeepsInvariant`: the same state meets the invariant. -/
theorem witness_invariant : launched.Inv := by
  refine ⟨by decide, ?_, ?_, by decide, by decide, by decide, by decide, by decide⟩
  · intro r hr
    rw [show r = List.replicate 128 false by
      simpa [launched, conf, State.withFetchWord, State.launchConfig, State.setMem, State.reset]
        using hr]
    rfl
  · intro w hw
    rw [show w = 0 by
      simpa [launched, conf, State.withFetchWord, State.launchConfig, State.setMem, State.reset]
        using hw]
    rfl
/-- `StepRunsDecodedInstruction`; `FetchIsLittleEndian` answers a word. -/
theorem witness_step_runs :
    launched.illFormed = none ∧ launched.fetch = some 0x42382557 ∧
      decode 0x42382557 = .instr (.vpopc 10 3 true) := by decide
/-- `StepStopsByName`: ill formed, misaligned, nothing there, no instruction. -/
theorem witness_step_stops :
    (conf 17 0).illFormed = some .vlRange ∧ State.pcAligned { conf 8 0 with pc := 2 } = false ∧
      (conf 8 0).illFormed = none ∧ (conf 8 0).fetch = none ∧
      ((conf 8 0).withFetchWord 32 0x13).illFormed = none ∧
      ((conf 8 0).withFetchWord 32 0x13).fetch = some 0x13 ∧
      decode 0x13 = .notInSpec .opcode := by decide
/-- `PlacedByteIsRead`: a program that fits, over the top of the address space. -/
theorem witness_program_fits :
    4 * [0x42382557, 0x4238A5D7].length ≤ 2 ^ xlenBits wrapStart.params.xlen := by decide
/-- `SafeStepsEndTheRun`, `PcAdvancesModuloXlen`: a run of one safe step from `base = 0`. -/
theorem witness_run : launched.Finished 0 0 ∧ ∃ t, State.Runs 1 launched t := by
  obtain ⟨t, ht⟩ := witness_step_next
  exact ⟨by decide, t, t, ⟨ht, next_of_after (by decide)⟩, rfl⟩
/-- `SafeStepsEndTheRun`, second clause: the step raises, with a trap entry present. -/
theorem witness_raising_step :
    let s := trapping ((conf 8 1).withFetchWord 32 0x42382557)
    s.fetch = some (encode (.vpopc 10 3 true)) ∧
      exec (.vpopc 10 3 true) s.withoutEntry =
        raiseIllegal (encode (.vpopc 10 3 true)) s.withoutEntry :=
  ⟨by decide, rfl⟩
/-- `EncodeOfDecode`: a reserved word decodes too. -/
theorem witness_decode : decode 0x5230A1D7 = .instr (.vmsbf 3 3 true) := by decide
/-- `OpcodeMapDecodes`: every row is met, by its own `match` word. -/
theorem witness_opcode_map : ∀ row ∈ opcodeMap, row.1 &&& row.2.1 = row.1 := by
  simp [opcodeMap]

end Sys2Proof.Tests
end

/-! PROOF. The sign of a scalar result (R5), and the facts about completing, reading back and XLEN-bit
values it rests on. -/

namespace Sys2Proof.Proofs

open Sys2Proof.Machine Sys2Proof.Claims

/-! ### Completing, and the scalar register read after it -/

/-- With every check passed an instruction answers the state it leaves (R126). -/
theorem exec_eq_completed {s : State} {i : Instr} (hs : s.Ready) (hi : staticReserved i = none)
    (hl : reservedByLmul s i = none) (hz : needsVstartZero i = true → s.vstart = 0) :
    exec i s = .next (completed s i) := by
  obtain ⟨hr, he, hv⟩ := hs
  rw [exec_eq_attempt, hl]
  exact attempt_completes hr he hv hi hz

/-- The scalar register written reads as the XLEN-bit value written, if it is not `x0` (R11). -/
theorem readX_writeX_same (s : State) {r : RegNum} (w : XWord) (h : r ≠ 0) :
    (s.writeX r w).readX r = truncX s.params.xlen w := by
  rw [State.readX_writeX, if_pos ⟨rfl, h⟩]

/-- What `vpopc.m` leaves in its destination (R90). -/
theorem readX_completed_vpopc (s : State) {rd : RegNum} (vs2 : RegNum) (vm : Bool) (h : rd ≠ 0) :
    (completed s (.vpopc rd vs2 vm)).readX rd =
      truncX s.params.xlen (BitVec.ofNat 64 (s.countBelow vs2 vm s.vl)) :=
  readX_writeX_same s _ h

/-- What `vfirst.m` leaves in its destination (R95). -/
theorem readX_completed_vfirst (s : State) {rd : RegNum} (vs2 : RegNum) (vm : Bool) (h : rd ≠ 0) :
    (completed s (.vfirst rd vs2 vm)).readX rd =
      truncX s.params.xlen (firstResult s.params.xlen (s.firstSet vs2 vm)) :=
  readX_writeX_same s _ h

/-! ### Active set elements -/

/-- The model's test of an element is the statements' one (R29). -/
theorem activeSet_iff (s : State) (vs2 : RegNum) (vm : Bool) (i : Nat) :
    s.activeSet vs2 vm i = true ↔ Enabled s vm i ∧ s.maskBit vs2 i = true := by
  simp [State.activeSet, State.enabled, Enabled]

/-- The search finds nothing exactly when no active element is 1. -/
theorem firstSet_eq_none_iff_noFirst (s : State) (vs2 : RegNum) (vm : Bool) :
    s.firstSet vs2 vm = none ↔ NoFirst s vs2 vm := by
  simp only [State.firstSet_eq_none, NoFirst, ← activeSet_iff, Bool.not_eq_true]

/-- An index the search finds is below `vl`. -/
theorem firstSet_lt_vl {s : State} {vs2 : RegNum} {vm : Bool} {k : Nat}
    (h : s.firstSet vs2 vm = some k) : k < s.vl :=
  ((s.firstSet_eq_some vs2 vm k).mp h).2.1

/-! ### XLEN-bit values and their highest bit -/

/-- VLEN is at most 2^16, below the highest bit of either XLEN (R4, R5). -/
theorem vlen_lt_signBit {p : Params} (h : paramsOk p = true) :
    p.vlen < 2 ^ (xlenBits p.xlen - 1) := by
  obtain ⟨k, hk, -, hle⟩ := paramsOk_vlen h
  have hx : 32 ≤ xlenBits p.xlen := by cases p.xlen <;> decide
  rw [hk]
  exact Nat.pow_lt_pow_right Nat.one_lt_two (by omega)

/-- A number below 2^(XLEN-1) is its own XLEN-bit value. -/
theorem truncX_ofNat_toNat (xl : XLen) {n : Nat} (h : n < 2 ^ (xlenBits xl - 1)) :
    (truncX xl (BitVec.ofNat 64 n)).toNat = n := by
  rw [truncX_toNat, BitVec.toNat_ofNat]
  cases xl <;> simp only [xlenBits] at * <;> omega

/-- A number below 2^(XLEN-1) has the highest bit clear. -/
theorem signBit_truncX_ofNat (xl : XLen) {n : Nat} (h : n < 2 ^ (xlenBits xl - 1)) :
    (truncX xl (BitVec.ofNat 64 n)).getLsbD (xlenBits xl - 1) = false := by
  rw [BitVec.getLsbD, truncX_ofNat_toNat xl h]
  exact Nat.testBit_lt_two_pow h

/-- The XLEN-bit -1 has the highest bit set. -/
theorem signBit_truncX_allOnes (xl : XLen) :
    (truncX xl (BitVec.allOnes 64)).getLsbD (xlenBits xl - 1) = true := by
  cases xl <;> decide

/-! ### The sign of a `vfirst.m` result -/

/-- Among the results of a search below 2^(XLEN-1), the highest bit is set only for none found. -/
theorem signBit_firstResult (xl : XLen) {first : Option Nat}
    (h : ∀ k, first = some k → k < 2 ^ (xlenBits xl - 1)) :
    (truncX xl (firstResult xl first)).getLsbD (xlenBits xl - 1) = true ↔ first = none := by
  cases first with
  | none => simp only [firstResult, truncX_idem, signBit_truncX_allOnes]
  | some k => simp [firstResult, signBit_truncX_ofNat xl (h k rfl)]

/-- Among them, only none found is written as -1: an index differs from -1 in the highest bit. -/
theorem firstResult_eq_minusOne (xl : XLen) {first : Option Nat}
    (h : ∀ k, first = some k → k < 2 ^ (xlenBits xl - 1)) :
    truncX xl (firstResult xl first) = truncX xl (BitVec.allOnes 64) ↔ first = none := by
  constructor
  · intro heq
    rw [← signBit_firstResult xl h, heq]
    exact signBit_truncX_allOnes xl
  · rintro rfl
    exact truncX_idem xl _

/-- Settles O14: counts and indices stay below 2^(XLEN-1), so only -1 has the highest bit set. -/
theorem negativeResultMeansNoneFound : Obligations.NegativeResultMeansNoneFound := by
  intro s hs
  have hvl : s.vl ≤ s.params.vlen := State.vl_le_vlen hs.1
  have hvlen : s.params.vlen < 2 ^ (xlenBits s.params.xlen - 1) :=
    vlen_lt_signBit (s.illFormed_eq_none.mp hs.1).1
  refine ⟨hvl, hvlen.le, fun rd vs2 vm hz hrd => ?_⟩
  have hcount : s.countBelow vs2 vm s.vl < 2 ^ (xlenBits s.params.xlen - 1) :=
    ((s.countBelow_le vs2 vm s.vl).trans hvl).trans_lt hvlen
  have hfirst : ∀ k, s.firstSet vs2 vm = some k → k < 2 ^ (xlenBits s.params.xlen - 1) :=
    fun k hk => ((firstSet_lt_vl hk).trans_le hvl).trans hvlen
  have hsign := signBit_firstResult s.params.xlen hfirst
  refine ⟨completed s (.vpopc rd vs2 vm), completed s (.vfirst rd vs2 vm),
    exec_eq_completed hs rfl rfl fun _ => hz, exec_eq_completed hs rfl rfl fun _ => hz, ?_⟩
  rw [readX_completed_vpopc s vs2 vm hrd, readX_completed_vfirst s vs2 vm hrd]
  refine ⟨?_, ?_, ?_⟩
  · rwa [truncX_ofNat_toNat _ hcount]
  · exact hsign.trans (firstSet_eq_none_iff_noFirst s vs2 vm)
  · exact hsign.trans (firstResult_eq_minusOne s.params.xlen hfirst).symm

end Sys2Proof.Proofs

/-! PROOF. The access of the instructions to the scalar registers (R12), and the facts it rests on:
what an instruction writes of them, and that its checks, its exception and its effect read none. -/

namespace Sys2Proof.Proofs

open Sys2Proof.Machine Sys2Proof.Claims

/-! ### What an instruction writes of the scalar registers -/

/-- `x0` reads 0 (R11). -/
theorem readX_zero (s : State) : s.readX 0 = 0 := if_pos rfl

/-- Equal scalar registers read the same. -/
theorem readX_eq_of_x_eq {s t : State} (h : t.x = s.x) (r : RegNum) : t.readX r = s.readX r := by
  simp only [State.readX, h]

/-- A scalar register that a write changes is the one written, and not `x0` (R11). -/
theorem eq_of_readX_writeX_ne {s : State} {n r : RegNum} {w : XWord}
    (h : (s.writeX n w).readX r ≠ s.readX r) : r = n ∧ n ≠ 0 := by
  by_contra hne
  exact h (by rw [State.readX_writeX, if_neg hne])

/-- Moving on to the next instruction leaves the scalar registers as they read. -/
@[simp] theorem readX_advance (s : State) (r : RegNum) : s.advance.readX r = s.readX r :=
  readX_eq_of_x_eq s.advance_x r

/-- A scalar register that completing changes is the destination of `vpopc.m` or `vfirst.m`
(R12). -/
theorem scalarResult_of_readX_completed_ne {s : State} {i : Instr} {r : RegNum}
    (h : (completed s i).readX r ≠ s.readX r) :
    ∃ vs2 vm, i = .vpopc r vs2 vm ∨ i = .vfirst r vs2 vm := by
  cases i with
  | vpopc rd vs2 vm =>
    simp only [completed, readX_advance] at h
    obtain ⟨rfl, -⟩ := eq_of_readX_writeX_ne h
    exact ⟨vs2, vm, .inl rfl⟩
  | vfirst rd vs2 vm =>
    simp only [completed, readX_advance] at h
    obtain ⟨rfl, -⟩ := eq_of_readX_writeX_ne h
    exact ⟨vs2, vm, .inr rfl⟩
  | _ =>
    refine absurd (readX_eq_of_x_eq ?_ r) h
    simp only [completed, State.logical, State.setFirst, State.advance_x, State.nextDraw_x,
      State.setVstart_x, State.setV_x, State.writeV_x]

/-! ### Other scalar registers, the same outcome -/

/-- But for the scalar registers, a write of one leaves the same state whatever they held. -/
theorem writeX_setX_setX (s : State) (x : Vector XWord 32) (n : RegNum) (w : XWord) :
    ((s.setX x).writeX n w).setX (s.writeX n w).x = s.writeX n w := by
  by_cases hn : n = 0 <;> simp only [State.writeX, hn, if_true, if_false] <;> rfl

/-- A state with other scalar registers is the state again once it is given the old ones. -/
theorem setX_x_of_eq_setX {s u : State} {x : Vector XWord 32} (h : u = s.setX x) :
    u.setX s.x = s := by
  rw [h]
  rfl

/-- But for the scalar registers, completing leaves the same state whatever they held (R12). -/
theorem completed_setX_setX (s : State) (x : Vector XWord 32) (i : Instr) :
    (completed (s.setX x) i).setX (completed s i).x = completed s i := by
  cases i with
  | vpopc rd vs2 vm => exact congrArg State.advance (writeX_setX_setX s x rd _)
  | vfirst rd vs2 vm => exact congrArg State.advance (writeX_setX_setX s x rd _)
  | viota vd vs2 vm => exact setX_x_of_eq_setX (x := x) rfl
  | vid vd vs2 vm => exact setX_x_of_eq_setX (x := x) rfl
  | _ => rfl

/-- What completing writes into a scalar register does not depend on the scalar registers (R12). -/
theorem readX_completed_setX {s : State} {i : Instr} {r : RegNum} (x : Vector XWord 32)
    (h : (completed s i).readX r ≠ s.readX r) :
    (completed (s.setX x) i).readX r = (completed s i).readX r := by
  have hr : r ≠ 0 := by
    rintro rfl
    exact h (by rw [readX_zero, readX_zero])
  obtain ⟨vs2, vm, rfl | rfl⟩ := scalarResult_of_readX_completed_ne h
  · rw [readX_completed_vpopc _ vs2 vm hr, readX_completed_vpopc s vs2 vm hr]
    rfl
  · rw [readX_completed_vfirst _ vs2 vm hr, readX_completed_vfirst s vs2 vm hr]
    rfl

/-- Two runs of an instruction stop alike: both raise the exception, or both are refused for the
same reason. -/
def StopAlike (i : Instr) (s s' : State) (o o' : Host.Outcome State Fault Refusal) : Prop :=
  (o = raiseIllegal (encode i) s ∧ o' = raiseIllegal (encode i) s') ∨
    ∃ f, o = .refused f ∧ o' = .refused f

/-- What a reserved encoding does is decided without the scalar registers (R60). -/
theorem reservedOutcome_setX (why : ReservedReason) (i : Instr) (s : State) (x : Vector XWord 32) :
    StopAlike i s (s.setX x) (reservedOutcome why (encode i) s)
      (reservedOutcome why (encode i) (s.setX x)) := by
  unfold reservedOutcome
  rw [State.setX_params]
  cases s.params.reservedBehaviour with
  | refuse => exact .inr ⟨_, rfl, rfl⟩
  | illegalInstruction => exact .inl ⟨rfl, rfl⟩

/-- The checks of R126 read no scalar register: with others, the instruction completes as before or
stops alike. -/
theorem attempt_setX (i : Instr) (byLmul : Option ReservedReason) (need : Bool)
    (done done' s : State) (x : Vector XWord 32) :
    (attempt i byLmul need done s = .next done ∧
        attempt i byLmul need done' (s.setX x) = .next done') ∨
      StopAlike i s (s.setX x) (attempt i byLmul need done s)
        (attempt i byLmul need done' (s.setX x)) := by
  have hwf : (s.setX x).illFormed = s.illFormed := rfl
  simp only [attempt, hwf, State.setX_params, State.setX_vtype, State.setX_vstart]
  cases s.illFormed with
  | some why => exact .inr (.inr ⟨_, rfl, rfl⟩)
  | none =>
    cases staticReserved i with
    | some why => exact .inr (reservedOutcome_setX why i s x)
    | none =>
      by_cases hoff : s.params.vectorEnabled = false ∨ s.vtype.vill = true
      · refine .inr (.inl ?_)
        simp only [hoff, if_true, and_self]
      · simp only [hoff, if_false]
        cases byLmul with
        | some why => exact .inr (reservedOutcome_setX why i s x)
        | none =>
          by_cases hstart : need = true ∧ s.vstart ≠ 0
          · refine .inr (.inl ?_)
            simp only [hstart.1, hstart.2, if_true, and_self, ne_eq, not_false_eq_true]
          · refine .inl ?_
            simp only [hstart, if_false, and_self]

/-- With other scalar registers an instruction completes as before or stops alike (R12). -/
theorem exec_setX (i : Instr) (s : State) (x : Vector XWord 32) :
    (exec i s = .next (completed s i) ∧ exec i (s.setX x) = .next (completed (s.setX x) i)) ∨
      StopAlike i s (s.setX x) (exec i s) (exec i (s.setX x)) := by
  have hl : reservedByLmul (s.setX x) i = reservedByLmul s i := by cases i <;> rfl
  rw [exec_eq_attempt i s, exec_eq_attempt i (s.setX x), hl]
  exact attempt_setX i _ _ _ _ s x

/-- A raised exception is never refused (R120). -/
theorem raiseIllegal_ne_refused (w : InsnWord) (s : State) (f : Refusal) :
    raiseIllegal w s ≠ .refused f := by
  unfold raiseIllegal
  cases s.params.trapEntry <;> nofun

/-- The fault of a raised exception does not depend on the scalar registers (R120). -/
theorem raiseIllegal_setX_fault {w : InsnWord} {s : State} {f : Fault} (x : Vector XWord 32)
    (h : raiseIllegal w s = .fault f) : raiseIllegal w (s.setX x) = .fault f := by
  unfold raiseIllegal at *
  rw [State.setX_params]
  cases hentry : s.params.trapEntry with
  | absent => simpa only [hentry, State.setX_pc] using h
  | machineMode => simp [hentry] at h
  | platform => simp [hentry] at h

/-- The machine-mode trap entry is taken alike whatever the scalar registers hold (R127). -/
theorem raiseIllegal_setX_machineMode {w : InsnWord} {s : State} (x : Vector XWord 32)
    (h : s.params.trapEntry = .machineMode) :
    raiseIllegal w (s.setX x) = .next ((s.setX x).takeIllegal w) :=
  raiseIllegal_eq_next.mpr (.inl ⟨h, rfl⟩)

/-! ### The two results at `vl = 0` -/

/-- Of no elements, none is counted (R91). -/
theorem countBelow_zero (s : State) (vs2 : RegNum) (vm : Bool) : s.countBelow vs2 vm 0 = 0 :=
  Nat.le_zero.mp (s.countBelow_le vs2 vm 0)

/-- Of no elements, none is found (R95). -/
theorem firstSet_of_vl_zero {s : State} (h : s.vl = 0) (vs2 : RegNum) (vm : Bool) :
    s.firstSet vs2 vm = none :=
  (s.firstSet_eq_none vs2 vm).mpr fun j hj => absurd hj (by omega)

/-- At `vl = 0` `vpopc.m` writes 0 (R12). -/
theorem readX_completed_vpopc_of_vl_zero {s : State} (h : s.vl = 0) {rd : RegNum} (vs2 : RegNum)
    (vm : Bool) (hrd : rd ≠ 0) : (completed s (.vpopc rd vs2 vm)).readX rd = 0 := by
  rw [readX_completed_vpopc s vs2 vm hrd, h, countBelow_zero]
  cases s.params.xlen <;> rfl

/-- At `vl = 0` `vfirst.m` writes -1 (R12). -/
theorem readX_completed_vfirst_of_vl_zero {s : State} (h : s.vl = 0) {rd : RegNum} (vs2 : RegNum)
    (vm : Bool) (hrd : rd ≠ 0) :
    (completed s (.vfirst rd vs2 vm)).readX rd = truncX s.params.xlen (BitVec.allOnes 64) := by
  rw [readX_completed_vfirst s vs2 vm hrd, firstSet_of_vl_zero h]
  exact truncX_idem _ _

/-! ### The obligation -/

/-- A scalar register that an instruction changes is its result, unless the platform's trap entry
continued the exception it raised (R12). -/
theorem scalarResult_of_exec_readX_ne {i : Instr} {s t : State} (h : exec i s = .next t)
    {r : RegNum} (hr : t.readX r ≠ s.readX r) :
    (∃ vs2 vm, i = .vpopc r vs2 vm ∨ i = .vfirst r vs2 vm) ∨
      (s.params.trapEntry = .platform ∧ raiseIllegal (encode i) s = .next t) := by
  obtain ⟨rfl, -⟩ | ⟨hraise, -⟩ := exec_next h
  · exact .inl (scalarResult_of_readX_completed_ne hr)
  · obtain ⟨-, rfl⟩ | ⟨hentry, -⟩ := raiseIllegal_eq_next.mp hraise
    · exact absurd rfl hr
    · exact .inr ⟨hentry, hraise⟩

/-- With other scalar registers an instruction answers the same next state but for them, and writes
the same result, unless the platform's trap entry continued the exception it raised (R12). -/
theorem exec_setX_next {i : Instr} {s t : State} (x : Vector XWord 32) (h : exec i s = .next t) :
    (∃ u, exec i (s.setX x) = .next u ∧ u.setX t.x = t ∧
        ∀ r, t.readX r ≠ s.readX r → u.readX r = t.readX r) ∨
      (s.params.trapEntry = .platform ∧ raiseIllegal (encode i) s = .next t ∧
        exec i (s.setX x) = raiseIllegal (encode i) (s.setX x)) := by
  obtain ⟨hs, hx⟩ | ⟨hs, hx⟩ | ⟨f, hs, -⟩ := exec_setX i s x
  · obtain rfl : completed s i = t := Host.Outcome.next.inj (hs.symm.trans h)
    exact .inl ⟨_, hx, completed_setX_setX s x i, fun r hr => readX_completed_setX x hr⟩
  · have hraise : raiseIllegal (encode i) s = .next t := hs.symm.trans h
    obtain ⟨hentry, rfl⟩ | ⟨hentry, -⟩ := raiseIllegal_eq_next.mp hraise
    · exact .inl ⟨_, hx.trans (raiseIllegal_setX_machineMode x hentry), rfl,
        fun r hr => absurd rfl hr⟩
    · exact .inr ⟨hentry, hraise, hx⟩
  · exact absurd (hs.symm.trans h) nofun

/-- With other scalar registers an instruction has the same fault (R12). -/
theorem exec_setX_fault {i : Instr} {s : State} {f : Fault} (x : Vector XWord 32)
    (h : exec i s = .fault f) : exec i (s.setX x) = .fault f := by
  obtain ⟨hs, -⟩ | ⟨hs, hx⟩ | ⟨f', hs, -⟩ := exec_setX i s x
  · exact absurd (hs.symm.trans h) nofun
  · exact hx.trans (raiseIllegal_setX_fault x (hs.symm.trans h))
  · exact absurd (hs.symm.trans h) nofun

/-- With other scalar registers an instruction has the same refusal (R12). -/
theorem exec_setX_refused {i : Instr} {s : State} {f : Refusal} (x : Vector XWord 32)
    (h : exec i s = .refused f) : exec i (s.setX x) = .refused f := by
  obtain ⟨hs, -⟩ | ⟨hs, -⟩ | ⟨f', hs, hx⟩ := exec_setX i s x
  · exact absurd (hs.symm.trans h) nofun
  · exact absurd (hs.symm.trans h) (raiseIllegal_ne_refused _ _ f)
  · exact hx.trans (hs.symm.trans h)

/-- Settles O30: the checks and the effects read no scalar register, and only the two scalar results
write one. -/
theorem onlyScalarResultsWriteX : Obligations.OnlyScalarResultsWriteX := by
  refine ⟨fun i s t h r hr => scalarResult_of_exec_readX_ne h hr, fun i s x => ⟨fun t h =>
    exec_setX_next x h, fun f h => exec_setX_fault x h, fun f h => exec_setX_refused x h⟩, ?_⟩
  intro rd vs2 vm s hs hstart hvl hrd
  exact ⟨completed s (.vpopc rd vs2 vm), completed s (.vfirst rd vs2 vm),
    exec_eq_completed hs rfl rfl fun _ => hstart, exec_eq_completed hs rfl rfl fun _ => hstart,
    readX_completed_vpopc_of_vl_zero hvl vs2 vm hrd,
    readX_completed_vfirst_of_vl_zero hvl vs2 vm hrd⟩

end Sys2Proof.Proofs

/-! PROOF. The reserved verdicts that the source states (R61): of the eight logical instructions, and of
`vid.v` with a source field. -/

namespace Sys2Proof.Proofs

open Sys2Proof.Machine Sys2Proof.Claims

/-- The `vm` bit alone decides the verdict of each logical instruction, whatever its registers (R61). -/
theorem staticReserved_logical {make : RegNum → RegNum → RegNum → Bool → Instr}
    (h : make ∈ logicals) (vd vs2 vs1 : RegNum) (vm : Bool) :
    staticReserved (make vd vs2 vs1 vm) = reservedLogical vm := by
  simp only [logicals, List.mem_cons, List.not_mem_nil, or_false] at h
  obtain rfl | rfl | rfl | rfl | rfl | rfl | rfl | rfl := h <;> rfl

/-- The source field of `vid.v` is looked at before its mask (R61, R62). -/
theorem staticReserved_vid_of_source_ne_zero (vd : RegNum) {vs2 : RegNum} (vm : Bool) (h : vs2 ≠ 0) :
    staticReserved (.vid vd vs2 vm) = some .vidSourceField :=
  if_pos h

/-- Settles O38: `vm = 0` is the reserved side of the logical instructions' verdict, and the source
field is the first check of `vid.v`. -/
theorem sourceNamedReservedEncodings : Obligations.SourceNamedReservedEncodings := by
  constructor
  · intro make hmake vd vs2 vs1
    exact staticReserved_logical hmake vd vs2 vs1 false
  · intro vd vs2 vm hvs2
    exact staticReserved_vid_of_source_ne_zero vd vm hvs2

end Sys2Proof.Proofs

/-! PROOF. The body a mask-register logical instruction leaves (R83), and the pseudoinstructions that
expand to one (R78 to R82). -/

namespace Sys2Proof.Proofs

open Sys2Proof.Machine Sys2Proof.Claims

/-- In its destination a mask-register logical instruction leaves the new mask, in any other register
what it held (R83). -/
theorem readV_logical (s : State) (f : Bool → Bool → Bool) (vd vs2 vs1 n : RegNum) :
    (s.logical f vd vs2 vs1).readV n =
      if n = vd then s.newMask vd true fun i => f (s.maskBit vs2 i) (s.maskBit vs1 i)
      else s.readV n :=
  s.readV_writeV vd n _

/-- Below VLEN, mask element `i` of a logical instruction's destination is its new mask bit (R83). -/
theorem maskBit_logical (s : State) (f : Bool → Bool → Bool) (vd vs2 vs1 : RegNum) {i : Nat}
    (hi : i < s.params.vlen) :
    (s.logical f vd vs2 vs1).maskBit vd i =
      s.newMaskBit vd true (fun j => f (s.maskBit vs2 j) (s.maskBit vs1 j)) i := by
  rw [State.maskBit, readV_logical, if_pos rfl]
  exact s.newMask_getD vd true _ hi

/-- An unmasked body element of a mask destination is active: it gets the value (R28, R29). -/
theorem newMaskBit_body {s : State} {i : Nat} (vd : RegNum) (body : Nat → Bool) (hlo : s.vstart ≤ i)
    (hhi : i < s.vl) : s.newMaskBit vd true body i = body i := by
  rw [s.newMaskBit_eq, if_neg (by omega), if_neg (by omega)]
  rfl

/-- Body element `i` of a logical instruction's destination is the function of the two source bits
(R83). -/
theorem maskBit_logical_body {s : State} (hs : s.Ready) (f : Bool → Bool → Bool)
    (vd vs2 vs1 : RegNum) {i : Nat} (hlo : s.vstart ≤ i) (hhi : i < s.vl) :
    (s.logical f vd vs2 vs1).maskBit vd i = f (s.maskBit vs2 i) (s.maskBit vs1 i) :=
  (maskBit_logical s f vd vs2 vs1 (hhi.trans_le (State.vl_le_vlen hs.1))).trans
    (newMaskBit_body vd _ hlo hhi)

/-- No check of a pseudoinstruction's expansion can fire in a ready state: it is unmasked, and neither
LMUL nor `vstart` stops it (R67, R126). -/
theorem exec_expand (p : Pseudo) {s : State} (hs : s.Ready) :
    exec p.expand s = .next (completed s p.expand) := by
  cases p <;> exact exec_eq_completed hs rfl rfl nofun

/-- Settles O10: each expansion completes, and its function of the two equal source bits is the bit
itself, 0, 1, or the complement. -/
theorem pseudoinstructionsAct : Obligations.PseudoinstructionsAct := by
  refine ⟨fun vd vs => ⟨rfl, rfl, rfl, rfl, rfl⟩, fun vd vs s hs i hlo hhi => ?_⟩
  have hbody (f : Bool → Bool → Bool) (r : RegNum) :
      (s.logical f vd r r).maskBit vd i = f (s.maskBit r i) (s.maskBit r i) :=
    maskBit_logical_body hs f vd r r hlo hhi
  have hmove : (s.logical (fun a b => a && b) vd vs vs).maskBit vd i = s.maskBit vs i :=
    (hbody _ vs).trans (Bool.and_self _)
  refine ⟨⟨_, exec_expand (.vmmv vd vs) hs, hmove⟩, ⟨_, exec_expand (.vmcpy vd vs) hs, hmove⟩,
    ⟨_, exec_expand (.vmclr vd) hs, ?_⟩, ⟨_, exec_expand (.vmset vd) hs, ?_⟩,
    ⟨_, exec_expand (.vmnot vd vs) hs, ?_⟩⟩
  · exact (hbody (fun a b => a ^^ b) vd).trans (Bool.xor_self _)
  · exact (hbody (fun a b => !(a ^^ b)) vd).trans (congrArg not (Bool.xor_self _))
  · exact (hbody (fun a b => !(a && b)) vs).trans (congrArg not (Bool.and_self _))

end Sys2Proof.Proofs

/-! PROOF. The decoder and the encoder undo each other (R52, R68), the opcode map (R55 to R57), and
the words outside it (R64). -/

namespace Sys2Proof.Proofs

open Sys2Proof.Machine Sys2Proof.Claims

/-! ### The fields of an assembled word, and a word from its fields (R51, R52) -/

section AssembledFields

variable (f : BitVec 6) (vm : Bool) (vs2 vs1 vd : RegNum)

@[simp] theorem fieldOpcode_assemble : fieldOpcode (assemble f vm vs2 vs1 vd) = 0b1010111 :=
  BitVec.extractLsb'_append_eq_right

@[simp] theorem fieldVd_assemble : fieldVd (assemble f vm vs2 vs1 vd) = vd := by
  simp only [fieldVd, assemble]
  rw [BitVec.extractLsb'_append_eq_of_le (by decide)]
  exact BitVec.extractLsb'_append_eq_right

@[simp] theorem fieldFunct3_assemble : fieldFunct3 (assemble f vm vs2 vs1 vd) = 0b010 := by
  simp only [fieldFunct3, assemble]
  iterate 2 rw [BitVec.extractLsb'_append_eq_of_le (by decide)]
  exact BitVec.extractLsb'_append_eq_right

@[simp] theorem fieldVs1_assemble : fieldVs1 (assemble f vm vs2 vs1 vd) = vs1 := by
  simp only [fieldVs1, assemble]
  iterate 3 rw [BitVec.extractLsb'_append_eq_of_le (by decide)]
  exact BitVec.extractLsb'_append_eq_right

@[simp] theorem fieldVs2_assemble : fieldVs2 (assemble f vm vs2 vs1 vd) = vs2 := by
  simp only [fieldVs2, assemble]
  iterate 4 rw [BitVec.extractLsb'_append_eq_of_le (by decide)]
  exact BitVec.extractLsb'_append_eq_right

@[simp] theorem fieldFunct6_assemble : fieldFunct6 (assemble f vm vs2 vs1 vd) = f := by
  simp only [fieldFunct6, assemble]
  iterate 6 rw [BitVec.extractLsb'_append_eq_of_le (by decide)]
  exact BitVec.extractLsb'_eq_self

@[simp] theorem fieldVm_assemble : fieldVm (assemble f vm vs2 vs1 vd) = vm := by
  simp only [fieldVm, assemble, BitVec.getLsbD_append]
  exact BitVec.getLsbD_ofBool vm 0

end AssembledFields

/-- The `vm` bit as a field of width one. -/
theorem ofBool_fieldVm (w : InsnWord) : BitVec.ofBool (fieldVm w) = w.extractLsb' 25 1 := by
  apply BitVec.eq_of_getLsbD_eq
  intro k hk
  obtain rfl : k = 0 := by omega
  simp [fieldVm]

/-- A word under the vector opcode and funct3 010 is the common format of its own fields (R52). -/
theorem assemble_fields {w : InsnWord} (ho : fieldOpcode w = 0b1010111)
    (h3 : fieldFunct3 w = 0b010) :
    assemble (fieldFunct6 w) (fieldVm w) (fieldVs2 w) (fieldVs1 w) (fieldVd w) = w := by
  rw [assemble, show 0b1010111#7 = _ from ho.symm, show 0b010#3 = _ from h3.symm, ofBool_fieldVm]
  simp only [fieldFunct6, fieldVs2, fieldVs1, fieldFunct3, fieldVd, fieldOpcode]
  iterate 6 rw [BitVec.extractLsb'_append_extractLsb'_eq_extractLsb' (by decide)]
  exact BitVec.extractLsb'_eq_self

/-- The four bytes of a word put together again are the word (R43). -/
theorem wordOfBytes_byteOfWord (w : InsnWord) :
    wordOfBytes (byteOfWord w 0) (byteOfWord w 1) (byteOfWord w 2) (byteOfWord w 3) = w := by
  simp only [wordOfBytes, byteOfWord]
  iterate 3 rw [BitVec.extractLsb'_append_extractLsb'_eq_extractLsb' (by decide)]
  exact BitVec.extractLsb'_eq_self

/-! ### What the decoder answers, form by form -/

section Forms

variable {w : InsnWord} (ho : fieldOpcode w = 0b1010111) (h3 : fieldFunct3 w = 0b010)
include ho h3

/-- A logical `funct6` decodes to its instruction over the fields of the word (R55). -/
theorem decode_logical {make : RegNum → RegNum → RegNum → Bool → Instr}
    (h : decodeLogical (fieldFunct6 w) = some make) :
    decode w = .instr (make (fieldVd w) (fieldVs2 w) (fieldVs1 w) (fieldVm w)) := by
  have hs : fieldFunct6 w ≠ 0b010000 := fun e => by rw [e] at h; cases h
  have hu : fieldFunct6 w ≠ 0b010100 := fun e => by rw [e] at h; cases h
  simp only [decode, ho, h3, hs, hu, h, ne_eq, not_true_eq_false, if_false]

/-- A scalar sub-opcode decodes to its instruction over the fields of the word (R56). -/
theorem decode_scalar {make : RegNum → RegNum → Bool → Instr} (h6 : fieldFunct6 w = 0b010000)
    (h : decodeScalar (fieldVs1 w) = some make) :
    decode w = .instr (make (fieldVd w) (fieldVs2 w) (fieldVm w)) := by
  simp only [decode, ho, h3, h6, h, ne_eq, not_true_eq_false, if_false, if_true]

/-- A vector-result sub-opcode decodes to its instruction over the fields of the word (R57). -/
theorem decode_unary {make : RegNum → RegNum → Bool → Instr} (h6 : fieldFunct6 w = 0b010100)
    (h : decodeUnary (fieldVs1 w) = some make) :
    decode w = .instr (make (fieldVd w) (fieldVs2 w) (fieldVm w)) := by
  have hs : ¬(0b010100 : BitVec 6) = 0b010000 := by decide
  simp only [decode, ho, h3, h6, hs, h, ne_eq, not_true_eq_false, if_false, if_true]

end Forms

/-- A word that decodes has the vector opcode, funct3 010, and one of the three forms (R64). -/
theorem form_of_decode {w : InsnWord} {i : Instr} (h : decode w = .instr i) :
    fieldOpcode w = 0b1010111 ∧ fieldFunct3 w = 0b010 ∧
      ((∃ make, decodeLogical (fieldFunct6 w) = some make ∧
          i = make (fieldVd w) (fieldVs2 w) (fieldVs1 w) (fieldVm w)) ∨
        (fieldFunct6 w = 0b010000 ∧ ∃ make, decodeScalar (fieldVs1 w) = some make ∧
          i = make (fieldVd w) (fieldVs2 w) (fieldVm w)) ∨
        (fieldFunct6 w = 0b010100 ∧ ∃ make, decodeUnary (fieldVs1 w) = some make ∧
          i = make (fieldVd w) (fieldVs2 w) (fieldVm w))) := by
  by_cases ho : fieldOpcode w = 0b1010111
  case neg => rw [decode, if_pos ho] at h; cases h
  by_cases h3 : fieldFunct3 w = 0b010
  case neg => rw [decode, if_neg (not_not.mpr ho), if_pos h3] at h; cases h
  refine ⟨ho, h3, ?_⟩
  simp only [decode, ho, h3, ne_eq, not_true_eq_false, if_false] at h
  split at h
  · next h6 =>
    cases hd : decodeScalar (fieldVs1 w) with
    | none => simp [hd] at h
    | some make => exact .inr (.inl ⟨h6, make, rfl, by simpa [hd, eq_comm] using h⟩)
  · split at h
    · next h6 =>
      cases hd : decodeUnary (fieldVs1 w) with
      | none => simp [hd] at h
      | some make => exact .inr (.inr ⟨h6, make, rfl, by simpa [hd, eq_comm] using h⟩)
    · cases hd : decodeLogical (fieldFunct6 w) with
      | none => simp [hd] at h
      | some make => exact .inl ⟨make, rfl, by simpa [hd, eq_comm] using h⟩

/-! ### Decoding what the encoder gives -/

section DecodeAssembled

variable {vd vs2 vs1 : RegNum} {vm : Bool}

theorem decode_assemble_logical {f : BitVec 6} {make : RegNum → RegNum → RegNum → Bool → Instr}
    (h : decodeLogical f = some make) :
    decode (assemble f vm vs2 vs1 vd) = .instr (make vd vs2 vs1 vm) := by
  simpa using decode_logical (w := assemble f vm vs2 vs1 vd) (by simp) (by simp) (by simpa using h)

theorem decode_assemble_scalar {make : RegNum → RegNum → Bool → Instr}
    (h : decodeScalar vs1 = some make) :
    decode (assemble 0b010000 vm vs2 vs1 vd) = .instr (make vd vs2 vm) := by
  simpa using decode_scalar (w := assemble 0b010000 vm vs2 vs1 vd) (by simp) (by simp) (by simp)
    (by simpa using h)

theorem decode_assemble_unary {make : RegNum → RegNum → Bool → Instr}
    (h : decodeUnary vs1 = some make) :
    decode (assemble 0b010100 vm vs2 vs1 vd) = .instr (make vd vs2 vm) := by
  simpa using decode_unary (w := assemble 0b010100 vm vs2 vs1 vd) (by simp) (by simp) (by simp)
    (by simpa using h)

end DecodeAssembled

/-- The word of an instruction decodes to it, reserved or not (R68). -/
theorem decode_encode (i : Instr) : decode (encode i) = .instr i := by
  cases i with
  | vpopc | vfirst => exact decode_assemble_scalar rfl
  | vmsbf | vmsof | vmsif | viota | vid => exact decode_assemble_unary rfl
  | _ => exact decode_assemble_logical rfl

/-- Settles O56: the decoder finds the fields the encoder placed, and the bytes are the word's. -/
theorem decodeOfEncode : Obligations.DecodeOfEncode := by
  intro i
  refine ⟨decode_encode i, fun rest => ?_⟩
  simp only [encodeBytes, bytesOfWord, List.cons_append, List.nil_append, decodeBytes,
    wordOfBytes_byteOfWord, decode_encode]

/-! ### Encoding what the decoder reads -/

section EncodeDecoded

variable (vd vs2 vs1 : RegNum) (vm : Bool)

theorem encode_of_decodeLogical {f : BitVec 6} {make : RegNum → RegNum → RegNum → Bool → Instr}
    (h : decodeLogical f = some make) :
    encode (make vd vs2 vs1 vm) = assemble f vm vs2 vs1 vd := by
  unfold decodeLogical at h
  split_ifs at h <;> subst f <;> cases h <;> rfl

theorem encode_of_decodeScalar {make : RegNum → RegNum → Bool → Instr}
    (h : decodeScalar vs1 = some make) :
    encode (make vd vs2 vm) = assemble 0b010000 vm vs2 vs1 vd := by
  unfold decodeScalar at h
  split_ifs at h <;> subst vs1 <;> cases h <;> rfl

theorem encode_of_decodeUnary {make : RegNum → RegNum → Bool → Instr}
    (h : decodeUnary vs1 = some make) :
    encode (make vd vs2 vm) = assemble 0b010100 vm vs2 vs1 vd := by
  unfold decodeUnary at h
  split_ifs at h <;> subst vs1 <;> cases h <;> rfl

end EncodeDecoded

/-- Settles O57: the encoder puts the fields the decoder read back in their places. -/
theorem encodeOfDecode : Obligations.EncodeOfDecode := by
  intro w i h
  obtain ⟨ho, h3, ⟨make, hd, rfl⟩ | ⟨h6, make, hd, rfl⟩ | ⟨h6, make, hd, rfl⟩⟩ := form_of_decode h
  · exact (encode_of_decodeLogical _ _ _ _ hd).trans (assemble_fields ho h3)
  · exact (encode_of_decodeScalar _ _ _ _ hd).trans (h6 ▸ assemble_fields ho h3)
  · exact (encode_of_decodeUnary _ _ _ _ hd).trans (h6 ▸ assemble_fields ho h3)

/-! ### The opcode map -/

/-- A field that a mask keeps whole reads the same under the mask. -/
theorem extractLsb'_and_of_allOnes {w m : InsnWord} {start len : Nat}
    (h : m.extractLsb' start len = BitVec.allOnes len) :
    (w &&& m).extractLsb' start len = w.extractLsb' start len := by
  rw [BitVec.extractLsb'_and, h, BitVec.and_allOnes]

/-- The fields that the mask of a logical row keeps (R55). -/
theorem fields_of_logicalRow {w m : InsnWord} (h : w &&& 0xFC00707F = m) :
    fieldOpcode w = fieldOpcode m ∧ fieldFunct3 w = fieldFunct3 m ∧
      fieldFunct6 w = fieldFunct6 m := by
  subst h
  exact ⟨(extractLsb'_and_of_allOnes (by decide)).symm,
    (extractLsb'_and_of_allOnes (by decide)).symm, (extractLsb'_and_of_allOnes (by decide)).symm⟩

/-- The fields that the mask of a row with a `vs1` sub-opcode keeps (R56, R57). -/
theorem fields_of_subOpcodeRow {w m : InsnWord} (h : w &&& 0xFC0FF07F = m) :
    fieldOpcode w = fieldOpcode m ∧ fieldFunct3 w = fieldFunct3 m ∧
      fieldFunct6 w = fieldFunct6 m ∧ fieldVs1 w = fieldVs1 m := by
  subst h
  exact ⟨(extractLsb'_and_of_allOnes (by decide)).symm,
    (extractLsb'_and_of_allOnes (by decide)).symm, (extractLsb'_and_of_allOnes (by decide)).symm,
    (extractLsb'_and_of_allOnes (by decide)).symm⟩

section Rows

variable {w m : InsnWord} (ho : fieldOpcode m = 0b1010111) (h3 : fieldFunct3 m = 0b010)
include ho h3

/-- A word that agrees with a logical row decodes to the row's instruction (R55). -/
theorem decode_of_logicalRow {make : RegNum → RegNum → RegNum → Bool → Instr}
    (hd : decodeLogical (fieldFunct6 m) = some make) (h : w &&& 0xFC00707F = m) :
    decode w = .instr (make (fieldVd w) (fieldVs2 w) (fieldVs1 w) (fieldVm w)) := by
  obtain ⟨ho', h3', h6'⟩ := fields_of_logicalRow h
  exact decode_logical (ho'.trans ho) (h3'.trans h3) (h6' ▸ hd)

/-- A word that agrees with a scalar-result row decodes to the row's instruction (R56). -/
theorem decode_of_scalarRow {make : RegNum → RegNum → Bool → Instr}
    (h6 : fieldFunct6 m = 0b010000) (hd : decodeScalar (fieldVs1 m) = some make)
    (h : w &&& 0xFC0FF07F = m) :
    decode w = .instr (make (fieldVd w) (fieldVs2 w) (fieldVm w)) := by
  obtain ⟨ho', h3', h6', h1'⟩ := fields_of_subOpcodeRow h
  exact decode_scalar (ho'.trans ho) (h3'.trans h3) (h6'.trans h6) (h1' ▸ hd)

/-- A word that agrees with a vector-result row decodes to the row's instruction (R57). -/
theorem decode_of_unaryRow {make : RegNum → RegNum → Bool → Instr}
    (h6 : fieldFunct6 m = 0b010100) (hd : decodeUnary (fieldVs1 m) = some make)
    (h : w &&& 0xFC0FF07F = m) :
    decode w = .instr (make (fieldVd w) (fieldVs2 w) (fieldVm w)) := by
  obtain ⟨ho', h3', h6', h1'⟩ := fields_of_subOpcodeRow h
  exact decode_unary (ho'.trans ho) (h3'.trans h3) (h6'.trans h6) (h1' ▸ hd)

end Rows

/-- Settles O58: under its mask a word has the fields of the row, which the decoder reads. -/
theorem opcodeMapDecodes : Obligations.OpcodeMapDecodes := by
  intro row hrow w h
  simp only [opcodeMap, List.mem_cons, List.not_mem_nil, or_false] at hrow
  rcases hrow with rfl | rfl | rfl | rfl | rfl | rfl | rfl | rfl | hrow
  iterate 8 exact decode_of_logicalRow rfl rfl rfl h
  rcases hrow with rfl | rfl | hrow
  iterate 2 exact decode_of_scalarRow rfl rfl rfl rfl h
  rcases hrow with rfl | rfl | rfl | rfl | rfl
  iterate 5 exact decode_of_unaryRow rfl rfl rfl rfl h

/-! ### The words outside the fifteen -/

/-- The eight logical codes are those whose three high bits are 011 (R55). -/
theorem decodeLogical_eq_none_iff (f : BitVec 6) :
    decodeLogical f = none ↔ f.extractLsb' 3 3 ≠ 0b011 := by
  rw [← Option.isNone_iff_eq_none]
  revert f
  decide

theorem decodeScalar_eq_none_iff (vs1 : RegNum) :
    decodeScalar vs1 = none ↔ vs1 ≠ 0b10000 ∧ vs1 ≠ 0b10001 := by
  rw [← Option.isNone_iff_eq_none]
  revert vs1
  decide

theorem decodeUnary_eq_none_iff (vs1 : RegNum) :
    decodeUnary vs1 = none ↔ vs1 ≠ 0b00001 ∧ vs1 ≠ 0b00010 ∧ vs1 ≠ 0b00011 ∧ vs1 ≠ 0b10000 ∧
      vs1 ≠ 0b10001 := by
  rw [← Option.isNone_iff_eq_none]
  revert vs1
  decide

/-- A word does not decode exactly when one of the decoder's lookups fails. -/
theorem notInSpec_iff (w : InsnWord) :
    (∃ why, decode w = .notInSpec why) ↔
      fieldOpcode w ≠ 0b1010111 ∨ fieldFunct3 w ≠ 0b010 ∨
        (fieldFunct6 w ≠ 0b010000 ∧ fieldFunct6 w ≠ 0b010100 ∧
          decodeLogical (fieldFunct6 w) = none) ∨
        (fieldFunct6 w = 0b010000 ∧ decodeScalar (fieldVs1 w) = none) ∨
        (fieldFunct6 w = 0b010100 ∧ decodeUnary (fieldVs1 w) = none) := by
  have hne : ¬(0b010000 : BitVec 6) = 0b010100 := by decide
  unfold decode
  split_ifs with ho h3 hs hu
  · exact ⟨fun _ => .inl ho, fun _ => ⟨_, rfl⟩⟩
  · exact ⟨fun _ => .inr (.inl h3), fun _ => ⟨_, rfl⟩⟩
  · cases decodeScalar (fieldVs1 w) <;> simp_all
  · cases decodeUnary (fieldVs1 w) <;> simp_all
  · cases decodeLogical (fieldFunct6 w) <;> simp_all

/-- Settles O59: the decoder's lookups fail exactly outside the codes R55 to R57 list. -/
theorem wordsOutsideTheSpec : Obligations.WordsOutsideTheSpec := by
  intro w
  have htop : w.extractLsb' 29 3 = (fieldFunct6 w).extractLsb' 3 3 := by
    ext k hk
    simp only [fieldFunct6, BitVec.getElem_extractLsb', BitVec.getLsbD_extractLsb',
      show 3 + k < 6 by omega, decide_true, Bool.true_and, ← Nat.add_assoc]
  rw [notInSpec_iff, decodeLogical_eq_none_iff, decodeScalar_eq_none_iff, decodeUnary_eq_none_iff,
    htop]
  rfl

/-- Settles O60: each of the nine words evaluates to its instruction. -/
theorem writtenOutWordsDecode : Obligations.WrittenOutWordsDecode := by
  unfold Obligations.WrittenOutWordsDecode
  decide

end Sys2Proof.Proofs

/-! PROOF. What a step keeps: the parameters, the program text and `vl`, `vtype` (R26, R42), a
well-formed state (R35), and the invariant of the machine's plain data. -/

namespace Sys2Proof.Proofs

open Sys2Proof.Machine Sys2Proof.Claims

/-! ### What a step and an instruction can do -/

/-- A step answers a next state only by running the instruction fetched from a well-formed state
(R42). -/
theorem step_next {s t : State} (h : step s = .next t) :
    ∃ w i, s.illFormed = none ∧ s.fetch = some w ∧ decode w = .instr i ∧ exec i s = .next t := by
  unfold step at h
  split at h
  · cases h
  · next hwf =>
    split at h
    · cases h
    · next w hw =>
      split at h
      · cases h
      · next i hi => exact ⟨w, i, hwf, hw, hi, h⟩

/-- What every instruction keeps, completing or through a trap entry (R26, R42). -/
theorem exec_keeps {i : Instr} {s t : State} (h : exec i s = .next t) :
    t.params = s.params ∧ t.vl = s.vl ∧ t.vtype = s.vtype ∧ t.mem = s.mem ∧
      (t.vstart = s.vstart ∨ t.vstart = 0) := by
  obtain ⟨rfl, -⟩ | ⟨hraise, -⟩ := exec_next h
  · refine ⟨completed_params s i, completed_vl s i, completed_vtype s i, completed_mem s i, ?_⟩
    rw [completed_vstart]
    split
    · exact .inl rfl
    · exact .inr rfl
  · obtain ⟨hp, -, hstart, hvl, hvt, hm⟩ := raiseIllegal_keeps hraise
    exact ⟨hp, hvl, hvt, hm, .inl hstart⟩

/-- Settles O31: completing and every trap entry keep `vl` and `vtype`. -/
theorem noInstructionWritesVlOrVtype : Obligations.NoInstructionWritesVlOrVtype := by
  intro i s t h
  obtain ⟨-, hvl, hvt, -, hstart⟩ := exec_keeps h
  exact ⟨hvl, hvt, hstart⟩

/-- Settles O32: the instruction a step runs keeps the memory and the parameters. -/
theorem noStepWritesProgram : Obligations.NoStepWritesProgram := by
  intro s t h
  obtain ⟨w, i, -, -, -, hexec⟩ := step_next h
  obtain ⟨hp, -, -, hm, -⟩ := exec_keeps hexec
  exact ⟨fun a => by rw [hm], hp⟩

/-! ### XLEN-bit values -/

/-- Truncation keeps the bits below XLEN and clears the others (R6). -/
@[simp] theorem getLsbD_truncX (xl : XLen) (w : XWord) (k : Nat) :
    (truncX xl w).getLsbD k = (decide (k < xlenBits xl) && w.getLsbD k) := by
  rw [BitVec.getLsbD, truncX_toNat, Nat.testBit_mod_two_pow]
  rfl

/-- An XLEN-bit value is one below 2^XLEN. -/
theorem truncX_eq_self_iff (xl : XLen) (w : XWord) :
    truncX xl w = w ↔ w.toNat < 2 ^ xlenBits xl := by
  rw [← BitVec.toNat_inj, truncX_toNat]
  exact ⟨fun h => h ▸ Nat.mod_lt _ (Nat.two_pow_pos _), Nat.mod_eq_of_lt⟩

/-- Clearing bits of an XLEN-bit value leaves one. -/
theorem truncX_truncX_and (xl : XLen) (w m : XWord) :
    truncX xl (truncX xl w &&& m) = truncX xl w &&& m := by
  apply BitVec.eq_of_getLsbD_eq
  intro k _
  simp only [getLsbD_truncX, BitVec.getLsbD_and, ← Bool.and_assoc, Bool.and_self]

/-- An instruction word is an XLEN-bit value (R121). -/
theorem truncX_setWidth_insn (xl : XLen) (w : InsnWord) :
    truncX xl (w.setWidth 64) = w.setWidth 64 := by
  have hx : 2 ^ 32 ≤ 2 ^ xlenBits xl := by cases xl <;> decide
  have hw : (w.setWidth 64).toNat < 2 ^ 32 := by
    rw [BitVec.toNat_setWidth]
    exact (Nat.mod_le _ _).trans_lt w.isLt
  exact (truncX_eq_self_iff xl _).mpr (hw.trans_le hx)

/-! ### The program counter -/

/-- `pc` is a multiple of 4 (R13). -/
theorem pcAligned_iff (s : State) : s.pcAligned = true ↔ s.pc.toNat % 4 = 0 := by
  rw [State.pcAligned, decide_eq_true_eq, ← BitVec.toNat_inj, BitVec.extractLsb'_toNat]
  rfl

/-- The next address is `pc + 4` modulo 2^XLEN (R13). -/
theorem nextPc_toNat (s : State) :
    s.nextPc.toNat = (s.pc.toNat + 4) % 2 ^ xlenBits s.params.xlen := by
  rw [State.nextPc, truncX_toNat, BitVec.toNat_add, Nat.mod_mod_of_dvd]
  · rfl
  · cases s.params.xlen <;> decide

/-- Where an instruction that answers a next state continues: after itself, or at a handler whose
address is an XLEN-bit value with the two low bits cleared (R127). -/
theorem exec_pc {i : Instr} {s t : State} (h : exec i s = .next t) :
    t.pc = s.nextPc ∨ ∃ p, t.pc = truncX s.params.xlen p &&& ~~~3#64 := by
  obtain ⟨rfl, -⟩ | ⟨hraise, -⟩ := exec_next h
  · exact .inl (completed_pc s i)
  · obtain ⟨-, rfl⟩ | ⟨-, rfl⟩ := raiseIllegal_eq_next.mp hraise <;> exact .inr ⟨_, rfl⟩

/-- Settles O29: without a trap entry only completing answers a next state. -/
theorem pcAdvancesModuloXlen : Obligations.PcAdvancesModuloXlen := by
  intro i s t h habsent
  obtain ⟨rfl, -⟩ | ⟨hraise, -⟩ := exec_next h
  · rw [completed_pc, nextPc_toNat]
  · obtain ⟨hentry, -⟩ | ⟨hentry, -⟩ := raiseIllegal_eq_next.mp hraise <;>
      exact absurd (habsent.symm.trans hentry) nofun

/-- From a well-formed state the next `pc` is an XLEN-bit multiple of 4 (R13, R44). -/
theorem exec_pc_wellFormed {i : Instr} {s t : State} (h : exec i s = .next t)
    (ha : s.pcAligned = true) : truncX s.params.xlen t.pc = t.pc ∧ t.pcAligned = true := by
  obtain hpc | ⟨p, hpc⟩ := exec_pc h
  · refine ⟨by rw [hpc, State.nextPc, truncX_idem], ?_⟩
    rw [pcAligned_iff] at ha ⊢
    rw [hpc, nextPc_toNat, Nat.mod_mod_of_dvd]
    · omega
    · cases s.params.xlen <;> decide
  · refine ⟨by rw [hpc, truncX_truncX_and], ?_⟩
    rw [State.pcAligned, decide_eq_true_eq, hpc, BitVec.extractLsb'_and]
    exact BitVec.and_zero

/-! ### Well-formed states -/

/-- Every instruction leaves a well-formed state (R35). -/
theorem exec_keeps_wellFormed {i : Instr} {s t : State} (hs : s.illFormed = none)
    (h : exec i s = .next t) : t.illFormed = none := by
  rw [State.illFormed_eq_none] at hs ⊢
  obtain ⟨hp, -, ha, hstart, hvill, hlegal⟩ := hs
  obtain ⟨hparams, hvl, hvt, -, hvs⟩ := exec_keeps h
  obtain ⟨hrange, haligned⟩ := exec_pc_wellFormed h ha
  rw [hparams, hvl, hvt]
  refine ⟨hp, hrange, haligned, ?_, hvill, hlegal⟩
  obtain hvs | hvs := hvs <;> omega

/-- An ill-formed state is refused by every instruction (R35). -/
theorem exec_of_illFormed (i : Instr) {s : State} {why : IllFormed} (h : s.illFormed = some why) :
    exec i s = .refused (.illFormedState why) := by
  simp only [exec_eq_attempt, attempt, h]

/-- Settles O45: the first check refuses, and what an instruction writes stays in range. -/
theorem wellFormednessIsKept : Obligations.WellFormednessIsKept := by
  refine ⟨fun i s why h => exec_of_illFormed i h, fun s t h => ?_⟩
  obtain ⟨w, i, hs, -, -, hexec⟩ := step_next h
  exact ⟨hs, exec_keeps_wellFormed hs hexec⟩

/-- Settles O46: the checks of R35, each as its number. -/
theorem wellFormedMeansRuleR35 : Obligations.WellFormedMeansRuleR35 := by
  intro s hvill
  rw [State.illFormed_eq_none, truncX_eq_self_iff, pcAligned_iff]
  simp only [hvill, VType.legal, Bool.and_eq_true, decide_eq_true_eq, and_assoc,
    Nat.lt_succ_iff, Bool.false_eq_true, false_implies, true_implies, true_and]
  rfl

/-! ### The stops of a step -/

/-- Settles O50: behind the check of the state a step is the instruction, which makes it again. -/
theorem stepRunsDecodedInstruction : Obligations.StepRunsDecodedInstruction := by
  intro s w i hw hi
  cases hs : s.illFormed with
  | some why => rw [exec_of_illFormed i hs, step, hs]
  | none => simp only [step, hs, hw, hi]

/-- With a misaligned `pc` the state is ill formed (R35, R44). -/
theorem illFormed_of_misaligned {s : State} (h : s.pcAligned = false) :
    ∃ why, s.illFormed = some why := by
  refine Option.ne_none_iff_exists'.mp fun hs => ?_
  obtain ⟨-, -, ha, -⟩ := s.illFormed_eq_none.mp hs
  exact absurd (h.symm.trans ha) nofun

/-- Settles O51: the three stops, in the order of `step`. -/
theorem stepStopsByName : Obligations.StepStopsByName := by
  intro s
  have hill (why) (h : s.illFormed = some why) : step s = .refused (.illFormedState why) := by
    simp only [step, h]
  refine ⟨hill, fun h => ?_, fun hs hf => ?_, fun w why hs hf hd => ?_⟩
  · obtain ⟨why, hwhy⟩ := illFormed_of_misaligned h
    exact ⟨why, hill why hwhy⟩
  · simp only [step, hs, hf]
  · simp only [step, hs, hf, hd]

/-! ### Registers one by one -/

/-- What holds of every entry of a register file holds of every register, and conversely. -/
theorem forall_mem_toList_iff {α : Type} (regs : Vector α 32) (P : α → Prop) :
    (∀ a ∈ regs.toList, P a) ↔ ∀ n : RegNum, P (regs[n.toNat]'(regNum_lt n)) := by
  constructor
  · intro h n
    exact h _ (by simp)
  · intro h a ha
    obtain ⟨k, hk, rfl⟩ := List.getElem_of_mem ha
    have hk32 : k < 32 := by simpa using hk
    simpa [Nat.mod_eq_of_lt hk32] using h (BitVec.ofNat 5 k)

/-! ### The vector registers keep their length -/

theorem logical_v (s : State) (f : Bool → Bool → Bool) (vd vs2 vs1 : RegNum) :
    (s.logical f vd vs2 vs1).v =
      (s.writeV vd (s.newMask vd true fun i => f (s.maskBit vs2 i) (s.maskBit vs1 i))).v :=
  rfl

theorem setFirst_v (s : State) (g : Option Nat → Nat → Bool) (vd vs2 : RegNum) (vm : Bool) :
    (s.setFirst g vd vs2 vm).v = (s.writeV vd (s.newMask vd vm (g (s.firstSet vs2 vm)))).v :=
  rfl

/-- What completing writes of the vector registers: nothing, one mask, or one group. -/
theorem completed_v_cases (s : State) (i : Instr) :
    (completed s i).v = s.v ∨
      (∃ vd vm body, (completed s i).v = (s.writeV vd (s.newMask vd vm body)).v) ∨
      ∃ vd vm value, (completed s i).v = (s.setV (s.newGroup vd vm value)).v := by
  cases i with
  | vpopc | vfirst => exact .inl (by simp [completed])
  | viota vd vs2 vm => exact .inr (.inr ⟨vd, vm, s.countBelow vs2 vm, rfl⟩)
  | vid vd vs2 vm => exact .inr (.inr ⟨vd, vm, id, rfl⟩)
  | vmsbf | vmsof | vmsif => exact .inr (.inl ⟨_, _, _, setFirst_v _ _ _ _ _⟩)
  | _ =>
    simp only [completed]
    exact .inr (.inl ⟨_, _, _, logical_v _ _ _ _ _⟩)

/-- Equal vector registers read the same. -/
theorem readV_eq_of_v_eq {s t : State} (h : t.v = s.v) (n : RegNum) : t.readV n = s.readV n := by
  simp only [State.readV, h]

theorem length_readV_completed {s : State} (h : ∀ n, (s.readV n).length = s.params.vlen) (i : Instr)
    (n : RegNum) : ((completed s i).readV n).length = s.params.vlen := by
  obtain hv | ⟨vd, vm, body, hv⟩ | ⟨vd, vm, value, hv⟩ := completed_v_cases s i
  · rw [readV_eq_of_v_eq hv, h]
  · rw [readV_eq_of_v_eq hv, State.readV_writeV]
    split
    · exact s.newMask_length vd vm body
    · exact h n
  · rw [readV_eq_of_v_eq hv, State.readV_newGroup]
    split
    · exact s.newGroupReg_length vm value n _
    · exact h n

/-! ### The scalar registers stay XLEN-bit values -/

/-- What the invariant says of the scalar registers: XLEN-bit values, `x0` 0 (R10, R11). -/
def XOk (xl : XLen) (x : Vector XWord 32) : Prop := (∀ w ∈ x.toList, truncX xl w = w) ∧ x[0] = 0

/-- What completing writes of the scalar registers: at most one (R12). -/
theorem completed_x_cases (s : State) (i : Instr) :
    (completed s i).x = s.x ∨ ∃ r w, (completed s i).x = (s.writeX r w).x := by
  cases i with
  | vpopc | vfirst => exact .inr ⟨_, _, rfl⟩
  | _ =>
    refine .inl ?_
    simp only [completed, State.logical, State.setFirst, State.advance_x, State.nextDraw_x,
      State.setVstart_x, State.setV_x, State.writeV_x]

theorem xOk_writeX {s : State} (h : XOk s.params.xlen s.x) (r : RegNum) (w : XWord) :
    XOk s.params.xlen (s.writeX r w).x := by
  obtain ⟨hfit, hzero⟩ := h
  rw [forall_mem_toList_iff] at hfit
  by_cases hr : r = 0
  · rw [State.writeX, if_pos hr]
    exact ⟨(forall_mem_toList_iff _ _).mpr hfit, hzero⟩
  · have hr0 : r.toNat ≠ 0 := fun h => hr (BitVec.toNat_inj.mp h)
    rw [State.writeX, if_neg hr]
    refine ⟨(forall_mem_toList_iff _ _).mpr fun n => ?_, ?_⟩
    · rw [State.setX_x, Vector.getElem_set]
      split
      · exact truncX_idem _ w
      · exact hfit n
    · rw [State.setX_x, Vector.getElem_set_ne _ _ hr0, hzero]

theorem xOk_completed {s : State} (h : XOk s.params.xlen s.x) (i : Instr) :
    XOk s.params.xlen (completed s i).x := by
  obtain hx | ⟨r, w, hx⟩ := completed_x_cases s i
  · rwa [hx]
  · rw [hx]
    exact xOk_writeX h r w

theorem xOk_takePlatform (s : State) (w : InsnWord) : XOk s.params.xlen (s.takePlatform w).x := by
  refine ⟨(forall_mem_toList_iff _ _).mpr fun n => ?_, Vector.getElem_set_self _⟩
  simp only [State.takePlatform, State.setPc_x, State.setTrap_x, State.setX_x, Vector.getElem_set,
    Vector.getElem_map]
  split
  · cases s.params.xlen <;> rfl
  · exact truncX_idem _ _

/-! ### The trap registers stay XLEN-bit values -/

theorem fits_trunc (t : TrapRegs) (xl : XLen) : (t.trunc xl).Fits xl :=
  ⟨truncX_idem xl _, truncX_idem xl _, truncX_idem xl _, truncX_idem xl _⟩

theorem fits_takeIllegal {s : State} (hpc : truncX s.params.xlen s.pc = s.pc)
    (h : s.trap.Fits s.params.xlen) (w : InsnWord) :
    (s.takeIllegal w).trap.Fits s.params.xlen := by
  obtain ⟨-, -, -, htvec⟩ := h
  have hcause : truncX s.params.xlen illegalInstructionCause = illegalInstructionCause := by
    cases s.params.xlen <;> rfl
  have hzero : truncX s.params.xlen 0 = 0 := by cases s.params.xlen <;> rfl
  refine ⟨hpc, hcause, ?_, htvec⟩
  simp only [State.takeIllegal, State.setPc_trap, State.setTrap_trap]
  split
  · exact truncX_setWidth_insn _ w
  · exact hzero

/-! ### The invariant -/

theorem exec_keeps_vLength {i : Instr} {s t : State} (h : exec i s = .next t)
    (hv : ∀ r ∈ s.v.toList, r.length = s.params.vlen) :
    ∀ r ∈ t.v.toList, r.length = s.params.vlen := by
  rw [forall_mem_toList_iff] at hv ⊢
  obtain ⟨rfl, -⟩ | ⟨hraise, -⟩ := exec_next h
  · exact length_readV_completed hv i
  · obtain ⟨-, hkeep, -⟩ := raiseIllegal_keeps hraise
    exact fun n => by rw [hkeep, hv]

theorem exec_keeps_xOk {i : Instr} {s t : State} (h : exec i s = .next t)
    (hx : XOk s.params.xlen s.x) : XOk s.params.xlen t.x := by
  obtain ⟨rfl, -⟩ | ⟨hraise, -⟩ := exec_next h
  · exact xOk_completed hx i
  · obtain ⟨-, rfl⟩ | ⟨-, rfl⟩ := raiseIllegal_eq_next.mp hraise
    · exact hx
    · exact xOk_takePlatform s _

theorem exec_keeps_fits {i : Instr} {s t : State} (h : exec i s = .next t)
    (hpc : truncX s.params.xlen s.pc = s.pc) (ht : s.trap.Fits s.params.xlen) :
    t.trap.Fits s.params.xlen := by
  obtain ⟨rfl, -⟩ | ⟨hraise, -⟩ := exec_next h
  · rwa [completed_trap]
  · obtain ⟨-, rfl⟩ | ⟨-, rfl⟩ := raiseIllegal_eq_next.mp hraise
    · exact fits_takeIllegal hpc ht _
    · exact fits_trunc _ _

/-- Settles O47: the instruction a step runs keeps each part of the invariant, whether it completes
or a trap entry is taken. -/
theorem stepKeepsInvariant : Obligations.StepKeepsInvariant := by
  rintro s t ⟨hwf, hv, hx, hpc, hx0, htrap, hmem, hbelow⟩ h
  obtain ⟨w, i, -, -, -, hexec⟩ := step_next h
  obtain ⟨hp, -, -, hm, -⟩ := exec_keeps hexec
  have hwf' := exec_keeps_wellFormed hwf hexec
  obtain ⟨-, hpc', -⟩ := t.illFormed_eq_none.mp hwf'
  obtain ⟨hxt, hxt0⟩ := exec_keeps_xOk hexec ⟨hx, hx0⟩
  refine ⟨hwf', ?_⟩
  rw [hp, hm]
  exact ⟨exec_keeps_vLength hexec hv, hxt, hp ▸ hpc', hxt0, exec_keeps_fits hexec hpc htrap, hmem,
    hbelow⟩

/-! ### Reset and the exception -/

/-- Settles O48: every register of the reset state holds zeros, of the width the parameters say. -/
theorem resetMeetsInvariant : Obligations.ResetMeetsInvariant := by
  refine ⟨by decide, (forall_mem_toList_iff _ _).mpr fun n => ?_,
    (forall_mem_toList_iff _ _).mpr fun n => rfl, by decide, by decide, by decide, by decide,
    by decide⟩
  simp [State.reset]

/-- Settles O49: the reset state is a literal. -/
theorem resetHoldsDefaults : Obligations.ResetHoldsDefaults := ⟨readX_zero _, rfl, rfl, rfl⟩

/-- The scalar registers after the platform's own entry, `x0` aside (R127). -/
theorem readX_takePlatform (s : State) (w : InsnWord) {n : RegNum} (hn : n ≠ 0) :
    (s.takePlatform w).readX n = truncX s.params.xlen
      ((Config.platformEntry illegalInstructionCause s.pc w s).x[n.toNat]'(regNum_lt n)) := by
  have hn0 : 0 ≠ n.toNat := fun h => hn (BitVec.toNat_inj.mp h.symm)
  rw [State.readX, if_neg hn]
  simp only [State.takePlatform, State.setPc_x, State.setTrap_x, State.setX_x,
    Vector.getElem_set_ne _ _ hn0, Vector.getElem_map]

/-- Settles O43: the fault, the machine-mode entry and the platform's entry, field by field. -/
theorem illegalInstructionOutcome : Obligations.IllegalInstructionOutcome := by
  refine fun w s => ⟨fun h => ?_, fun h => ?_, fun h => ?_⟩
  · rw [raiseIllegal, h]
  · exact ⟨_, raiseIllegal_eq_next.mpr (.inl ⟨h, rfl⟩), rfl, rfl, rfl, rfl, rfl, rfl, rfl, rfl, rfl,
      rfl, rfl, rfl, rfl, rfl, rfl, rfl⟩
  · exact ⟨_, raiseIllegal_eq_next.mpr (.inr ⟨h, rfl⟩),
      ⟨rfl, fun n hn => readX_takePlatform s w hn, rfl⟩, readX_zero _, rfl, rfl, rfl, rfl, rfl, rfl⟩

/-- Settles O44: the return reads back the three fields the entry saved. -/
theorem trapReturnUndoesEntry : Obligations.TrapReturnUndoesEntry :=
  fun _ _ => ⟨rfl, rfl, rfl⟩

end Sys2Proof.Proofs

/-! PROOF. The program text read back (R41 to R43), the launch of an instruction (R141), and the end
of a run of safe steps (R143). -/

namespace Sys2Proof.Proofs

open Sys2Proof.Machine Sys2Proof.Claims

/-! ### Bytes -/

/-- Reading the address placed, or another; the memory need not be canonical (R42). -/
theorem read_write (m : Memory) (a a' : Nat) (b : Byte) :
    (m.write a b).read a' = if a' = a then some b else m.read a' := by
  induction m with
  | nil => simp only [Memory.write, Memory.read, eq_comm]
  | cons c rest ih =>
    obtain ⟨k, e⟩ := c
    rcases lt_trichotomy a k with hlt | rfl | hgt
    · simp only [Memory.write, if_pos hlt, Memory.read, eq_comm (a := a)]
    · by_cases ha : a' = a
      · simp only [Memory.write, lt_irrefl, if_false, if_true, Memory.read, ha]
      · simp only [Memory.write, lt_irrefl, if_false, if_true, Memory.read, ha, Ne.symm ha]
    · simp only [Memory.write, hgt.not_gt, hgt.ne', if_false, Memory.read, ih]
      by_cases hk : k = a'
      · simp only [if_pos hk, if_neg (hk ▸ hgt.ne : a' ≠ a)]
      · simp only [if_neg hk]

/-- Placing some bytes and then others is placing them all (R41). -/
theorem writeBytes_append (xl : XLen) (bytes bytes' : List Byte) (a : Nat) (m : Memory) :
    m.writeBytes xl a (bytes ++ bytes') =
      (m.writeBytes xl a bytes).writeBytes xl (a + bytes.length) bytes' := by
  induction bytes generalizing a m with
  | nil => rfl
  | cons b rest ih =>
    rw [List.cons_append, Memory.writeBytes, Memory.writeBytes, ih, List.length_cons]
    congr 1
    omega

/-- Offsets less than 2^XLEN apart give different addresses (R41). -/
theorem wrapAddr_inj {xl : XLen} {a i j : Nat} (hi : i < 2 ^ xlenBits xl) (hj : j < 2 ^ xlenBits xl)
    (h : wrapAddr xl (a + i) = wrapAddr xl (a + j)) : i = j :=
  (Nat.ModEq.add_left_cancel' a h).eq_of_lt_of_lt hi hj

/-- Bytes that fit the address space are read where they were placed, over its top too (R41). -/
theorem readAt_writeBytes {xl : XLen} {bytes : List Byte} (hfit : bytes.length ≤ 2 ^ xlenBits xl)
    (m : Memory) (a : Nat) {j : Nat} (hj : j < bytes.length) :
    (m.writeBytes xl a bytes).readAt xl (a + j) = some bytes[j] := by
  induction bytes using List.reverseRecOn generalizing j with
  | nil => exact absurd hj (Nat.not_lt_zero j)
  | append_singleton bytes b ih =>
    rw [List.length_append, List.length_singleton] at hfit hj
    rw [writeBytes_append, Memory.writeBytes, Memory.writeBytes, Memory.readAt, read_write]
    by_cases hlast : j = bytes.length
    · subst hlast
      rw [if_pos rfl, List.getElem_concat_length rfl]
    · have hlt : j < bytes.length := by omega
      rw [if_neg fun h => hlast (wrapAddr_inj (by omega) (by omega) h),
        List.getElem_append_left hlt]
      exact ih (by omega) hlt

/-! ### Words -/

/-- The bytes of a word put together are its four bytes (R43). -/
theorem wordOfBytes_eq_iff (b0 b1 b2 b3 : Byte) (w : InsnWord) :
    wordOfBytes b0 b1 b2 b3 = w ↔
      b0 = byteOfWord w 0 ∧ b1 = byteOfWord w 1 ∧ b2 = byteOfWord w 2 ∧ b3 = byteOfWord w 3 := by
  constructor
  · rintro rfl
    simp only [wordOfBytes, byteOfWord]
    refine ⟨BitVec.extractLsb'_append_eq_right.symm, ?_, ?_, ?_⟩
    · rw [BitVec.extractLsb'_append_eq_of_le (by decide)]
      exact BitVec.extractLsb'_append_eq_right.symm
    · iterate 2 rw [BitVec.extractLsb'_append_eq_of_le (by decide)]
      exact BitVec.extractLsb'_append_eq_right.symm
    · iterate 3 rw [BitVec.extractLsb'_append_eq_of_le (by decide)]
      exact BitVec.extractLsb'_eq_self.symm
  · rintro ⟨rfl, rfl, rfl, rfl⟩
    exact wordOfBytes_byteOfWord w

/-- A word is read exactly where its four bytes stand, the lowest first (R42, R43). -/
theorem readWord_eq_some_iff (m : Memory) (xl : XLen) (a : Nat) (w : InsnWord) :
    m.readWord xl a = some w ↔
      m.readAt xl a = some (byteOfWord w 0) ∧ m.readAt xl (a + 1) = some (byteOfWord w 1) ∧
        m.readAt xl (a + 2) = some (byteOfWord w 2) ∧
        m.readAt xl (a + 3) = some (byteOfWord w 3) := by
  unfold Memory.readWord
  split
  · next h0 h1 h2 h3 => simp only [h0, h1, h2, h3, Option.some.injEq, wordOfBytes_eq_iff]
  · next hmissing =>
    exact iff_of_false nofun fun ⟨h0, h1, h2, h3⟩ => hmissing _ _ _ _ h0 h1 h2 h3

/-- Settles O52: the fetch reads a word, and the bytes of a word are its fields of eight bits. -/
theorem fetchIsLittleEndian : Obligations.FetchIsLittleEndian :=
  fun s w => readWord_eq_some_iff s.mem s.params.xlen s.pc.toNat w

/-! ### Programs -/

/-- Placing a program is placing the bytes of its words (R43). -/
theorem writeProgram_eq_writeBytes (xl : XLen) (words : List InsnWord) (base : Nat) (m : Memory) :
    m.writeProgram xl base words = m.writeBytes xl base (words.flatMap bytesOfWord) := by
  induction words generalizing base m with
  | nil => rfl
  | cons w rest ih => rw [Memory.writeProgram, ih, List.flatMap_cons, writeBytes_append]; rfl

@[simp] theorem length_bytesOfWord (w : InsnWord) : (bytesOfWord w).length = 4 := rfl

theorem length_flatMap_bytesOfWord (words : List InsnWord) :
    (words.flatMap bytesOfWord).length = 4 * words.length := by
  induction words with
  | nil => rfl
  | cons w rest ih =>
    rw [List.flatMap_cons, List.length_append, length_bytesOfWord, ih, List.length_cons]
    omega

/-- Byte `j` of word `k` is byte `4*k + j` of the program (R43). -/
theorem getElem?_flatMap_bytesOfWord (words : List InsnWord) (k : Nat) {j : Nat} (hj : j < 4) :
    (words.flatMap bytesOfWord)[4 * k + j]? = words[k]?.map (byteOfWord · j) := by
  induction words generalizing k with
  | nil => rfl
  | cons w rest ih =>
    rw [List.flatMap_cons]
    cases k with
    | zero =>
      rw [List.getElem?_append_left (by rw [length_bytesOfWord]; omega)]
      interval_cases j <;> rfl
    | succ k =>
      rw [List.getElem?_append_right (by rw [length_bytesOfWord]; omega), List.getElem?_cons_succ,
        ← ih, length_bytesOfWord]
      congr 1
      omega

/-- A program that fits the address space is read back word by word (R141). -/
theorem readWord_writeProgram {xl : XLen} {words : List InsnWord}
    (hfit : 4 * words.length ≤ 2 ^ xlenBits xl) (m : Memory) (base : Nat) {k : Nat}
    (hk : k < words.length) :
    (m.writeProgram xl base words).readWord xl (base + 4 * k) = words[k]? := by
  rw [List.getElem?_eq_getElem hk, readWord_eq_some_iff, writeProgram_eq_writeBytes]
  have hbyte (j : Nat) (hj : j < 4) :
      (m.writeBytes xl base (words.flatMap bytesOfWord)).readAt xl (base + 4 * k + j) =
        some (byteOfWord words[k] j) := by
    have hlen := length_flatMap_bytesOfWord words
    have hlt : 4 * k + j < (words.flatMap bytesOfWord).length := by omega
    rw [Nat.add_assoc, readAt_writeBytes (hlen ▸ hfit) m base hlt, ← List.getElem?_eq_getElem hlt,
      getElem?_flatMap_bytesOfWord words k hj, List.getElem?_eq_getElem hk, Option.map_some]
  exact ⟨hbyte 0 (by decide), hbyte 1 (by decide), hbyte 2 (by decide), hbyte 3 (by decide)⟩

/-- Settles O53: a write is read at its address alone, and the bytes of a program that fits lie at
different addresses. -/
theorem placedByteIsRead : Obligations.PlacedByteIsRead :=
  ⟨read_write, fun s base _ hfit _ hk =>
    readWord_writeProgram hfit s.mem base (List.mem_range.mp hk)⟩

/-! ### The launch -/

/-- The launch changes neither `pc` nor the parameters (R141). -/
theorem withFetchWord_keeps (s : State) (nbits w : Nat) :
    (s.withFetchWord nbits w).pc = s.pc ∧ (s.withFetchWord nbits w).params = s.params := by
  unfold State.withFetchWord State.launchConfig
  split <;> exact ⟨rfl, rfl⟩

/-- A word is its own table word of 32 bits. -/
theorem tableWord_toNat (w : InsnWord) : tableWord 32 w.toNat = w := by
  rw [tableWord, Nat.mod_eq_of_lt w.isLt, BitVec.ofNat_toNat, BitVec.setWidth_eq]

/-- The fetch after a launch finds the word launched (R42). -/
theorem fetch_withFetchWord (s : State) (w : InsnWord) :
    (s.withFetchWord 32 w.toNat).fetch = some w := by
  obtain ⟨hpc, hp⟩ := withFetchWord_keeps s 32 w.toNat
  have hfit : 4 * [w].length ≤ 2 ^ xlenBits s.params.xlen := by
    rw [List.length_singleton]
    cases s.params.xlen <;> decide
  have hread := readWord_writeProgram hfit s.mem s.pc.toNat (k := 0) Nat.zero_lt_one
  rw [State.fetch, hpc, hp, State.withFetchWord, State.setMem_mem, tableWord_toNat]
  exact hread

/-- Settles O55: the word launched is fetched and decodes to the instruction. -/
theorem launchedInstructionRunsNext : Obligations.LaunchedInstructionRunsNext :=
  fun i s => stepRunsDecodedInstruction _ _ i (fetch_withFetchWord s (encode i)) (decode_encode i)

/-! ### Safe steps -/

/-- With no trap entry an instruction answers a next state only by completing. -/
theorem exec_next_of_absent {i : Instr} {s t : State} (h : exec i s = .next t)
    (ha : s.params.trapEntry = .absent) :
    t = completed s i ∧ staticReserved i = none ∧ s.params.vectorEnabled = true ∧
      s.vtype.vill = false ∧ reservedByLmul s i = none ∧
      (needsVstartZero i = true → s.vstart = 0) := by
  obtain ⟨ht, -, hchecks⟩ | ⟨hraise, -⟩ := exec_next h
  · exact ⟨ht, hchecks⟩
  · rw [raiseIllegal, ha] at hraise
    cases hraise

/-- A safe step completes its instruction (R141 LP7). -/
theorem safeStep_eq_completed {s t : State} (h : s.SafeStep t) : ∃ i, t = completed s i := by
  obtain ⟨hstep, u, hstep'⟩ := h
  obtain ⟨w, i, hs, hw, hi, hexec⟩ := step_next hstep
  obtain ⟨w', i', -, hw', hi', hexec'⟩ := step_next hstep'
  obtain rfl : w = w' := Option.some.inj (hw.symm.trans hw')
  obtain rfl : i = i' := Decoded.instr.inj (hi.symm.trans hi')
  obtain ⟨-, hstatic, he, hvill, hlmul, hz⟩ := exec_next_of_absent hexec' rfl
  have hlmul' : reservedByLmul s i = none := by cases i <;> exact hlmul
  have hdone : exec i s = .next (completed s i) :=
    exec_eq_completed ⟨hs, he, hvill⟩ hstatic hlmul' hz
  exact ⟨i, Host.Outcome.next.inj (hexec.symm.trans hdone)⟩

/-- A safe step moves past one word more (R13, R143). -/
theorem finished_of_safeStep {s t : State} {base k : Nat} (h : s.SafeStep t)
    (hs : s.Finished base k) : t.Finished base (k + 1) := by
  obtain ⟨i, rfl⟩ := safeStep_eq_completed h
  show (completed s i).pc.toNat = wrapAddr (completed s i).params.xlen _
  rw [completed_pc, completed_params, nextPc_toNat, hs, wrapAddr, wrapAddr, Nat.mod_add_mod]
  congr 1

/-- `n` safe steps move past `n` words more. -/
theorem finished_of_runs {n : Nat} {s t : State} {base k : Nat} (h : State.Runs n s t)
    (hs : s.Finished base k) : t.Finished base (k + n) := by
  induction n generalizing s k with
  | zero => exact h ▸ hs
  | succ n ih =>
    obtain ⟨u, hstep, hruns⟩ := h
    have hu := ih hruns (finished_of_safeStep hstep hs)
    rwa [Nat.add_assoc, Nat.add_comm 1 n] at hu

/-- Settles O54: each safe step completes, so `pc` moves by 4; a raised exception without a trap
entry is a fault, which no safe step has. -/
theorem safeStepsEndTheRun : Obligations.SafeStepsEndTheRun := by
  refine ⟨fun n s t base hs h => ⟨⟨n, h⟩, ?_⟩, fun s i hw hraise t h => ?_⟩
  · have ht := finished_of_runs h hs
    rwa [Nat.zero_add] at ht
  · obtain ⟨-, u, hu⟩ := h
    have hstep : step s.withoutEntry = exec i s.withoutEntry :=
      stepRunsDecodedInstruction _ _ i hw (decode_encode i)
    exact absurd (hu.symm.trans (hstep.trans hraise)) nofun

end Sys2Proof.Proofs

/-! PROOF. The checks of R126, one outcome each; what they reserve and what raises (R27, R60 to R63,
R122); and the frames of the four families of instructions. -/

namespace Sys2Proof.Proofs

open Sys2Proof.Machine Sys2Proof.Claims

/-! ### The checks, one outcome each (R126) -/

section Checks

variable {i : Instr} {s : State}

/-- A statically reserved encoding, in any well-formed state (R60). -/
theorem exec_of_staticReserved {why : ReservedReason} (hs : s.illFormed = none)
    (h : staticReserved i = some why) : exec i s = reservedOutcome why (encode i) s := by
  simp only [exec_eq_attempt, attempt, hs, h]

/-- The vector unit off, or `vill = 1` (R27, R131). -/
theorem exec_of_off_or_vill (hs : s.illFormed = none) (hi : staticReserved i = none)
    (h : s.params.vectorEnabled = false ∨ s.vtype.vill = true) :
    exec i s = raiseIllegal (encode i) s := by
  simp only [exec_eq_attempt, attempt, hs, hi, if_pos h]

/-- In a ready state neither cause of the second check is there. -/
theorem not_off_or_vill_of_ready (hs : s.Ready) :
    ¬(s.params.vectorEnabled = false ∨ s.vtype.vill = true) := by
  obtain ⟨-, he, hv⟩ := hs
  simp only [he, hv, Bool.true_eq_false, Bool.false_eq_true, or_self, not_false_eq_true]

/-- An encoding that LMUL makes reserved (R62, R63). -/
theorem exec_of_reservedByLmul {why : ReservedReason} (hs : s.Ready) (hi : staticReserved i = none)
    (h : reservedByLmul s i = some why) : exec i s = reservedOutcome why (encode i) s := by
  simp only [exec_eq_attempt, attempt, hs.1, hi, if_neg (not_off_or_vill_of_ready hs), h]

/-- A non-zero `vstart` in an instruction that needs it 0 (R122). -/
theorem exec_of_vstart (hs : s.Ready) (hi : staticReserved i = none)
    (hl : reservedByLmul s i = none) (hn : needsVstartZero i = true) (h : s.vstart ≠ 0) :
    exec i s = raiseIllegal (encode i) s := by
  simp only [exec_eq_attempt, attempt, hs.1, hi, if_neg (not_off_or_vill_of_ready hs), hl,
    if_pos (And.intro hn h)]

end Checks

/-- Settles O37: the static check comes first, and `reserved_behaviour` decides between its two
outcomes. -/
theorem reservedBehaviourDecides : Obligations.ReservedBehaviourDecides := by
  intro i why s hs hi
  rw [exec_of_staticReserved hs hi, reservedOutcome]
  constructor <;> intro h <;> rw [h]

/-- Settles O41: the second check has both causes. -/
theorem villOrDisabledUnitRaises : Obligations.VillOrDisabledUnitRaises :=
  fun _ _ hs hi h => exec_of_off_or_vill hs hi h.symm

/-! ### The families of instructions -/

/-- A logical instruction leaves a mask computed from two source bits (R83). -/
theorem completed_of_mem_logicals {make : RegNum → RegNum → RegNum → Bool → Instr}
    (h : make ∈ logicals) :
    ∃ f, ∀ s vd vs2 vs1 vm, completed s (make vd vs2 vs1 vm) = s.logical f vd vs2 vs1 := by
  simp only [logicals, List.mem_cons, List.not_mem_nil, or_false] at h
  obtain rfl | rfl | rfl | rfl | rfl | rfl | rfl | rfl := h <;> simp only [completed] <;>
    exact ⟨_, fun _ _ _ _ _ => rfl⟩

/-- No check of a logical instruction depends on LMUL or `vstart` (R61, R122). -/
theorem checks_of_mem_logicals {make : RegNum → RegNum → RegNum → Bool → Instr}
    (h : make ∈ logicals) (s : State) (vd vs2 vs1 : RegNum) (vm : Bool) :
    reservedByLmul s (make vd vs2 vs1 vm) = none ∧
      needsVstartZero (make vd vs2 vs1 vm) = false := by
  simp only [logicals, List.mem_cons, List.not_mem_nil, or_false] at h
  obtain rfl | rfl | rfl | rfl | rfl | rfl | rfl | rfl := h <;> exact ⟨rfl, rfl⟩

/-- An unmasked logical instruction completes in every ready state. -/
theorem exec_logical_completes {make : RegNum → RegNum → RegNum → Bool → Instr}
    (h : make ∈ logicals) {s : State} (hs : s.Ready) (vd vs2 vs1 : RegNum) :
    exec (make vd vs2 vs1 true) s = .next (completed s (make vd vs2 vs1 true)) := by
  obtain ⟨hl, hn⟩ := checks_of_mem_logicals h s vd vs2 vs1 true
  exact exec_eq_completed hs (staticReserved_logical h vd vs2 vs1 true) hl
    fun hz => absurd (hn.symm.trans hz) nofun

/-- A set-first instruction leaves a mask computed from the first set element (R103). -/
theorem completed_of_mem_setFirsts {make : RegNum → RegNum → Bool → Instr} (h : make ∈ setFirsts) :
    ∃ g, ∀ s vd vs2 vm, completed s (make vd vs2 vm) = s.setFirst g vd vs2 vm := by
  simp only [setFirsts, List.mem_cons, List.not_mem_nil, or_false] at h
  obtain rfl | rfl | rfl := h <;> exact ⟨_, fun _ _ _ _ => rfl⟩

/-- The checks of a set-first instruction: the overlaps, and `vstart` (R62, R122). -/
theorem checks_of_mem_setFirsts {make : RegNum → RegNum → Bool → Instr} (h : make ∈ setFirsts)
    (s : State) (vd vs2 : RegNum) (vm : Bool) :
    staticReserved (make vd vs2 vm) = reservedOverlap vd vs2 vm ∧
      reservedByLmul s (make vd vs2 vm) = none ∧ needsVstartZero (make vd vs2 vm) = true := by
  simp only [setFirsts, List.mem_cons, List.not_mem_nil, or_false] at h
  obtain rfl | rfl | rfl := h <;> exact ⟨rfl, rfl, rfl⟩

/-! ### What is reserved (R62, R63) -/

/-- The overlaps of a mask destination that are reserved (R62). -/
theorem reservedOverlap_eq_none_iff (vd vs2 : RegNum) (vm : Bool) :
    reservedOverlap vd vs2 vm = none ↔ ¬(vd = vs2 ∨ (vm = false ∧ vd = 0)) := by
  unfold reservedOverlap
  split_ifs with h h'
  · exact iff_of_false nofun fun hn => hn (.inl h)
  · exact iff_of_false nofun fun hn => hn (.inr h')
  · exact iff_of_true rfl (not_or.mpr ⟨h, h'⟩)

/-- Different registers, and no `v0` as both mask and destination: no overlap is reserved (R62). -/
theorem reservedOverlap_eq_none {vd vs2 : RegNum} {vm : Bool} (hne : vd ≠ vs2)
    (hv0 : vm = true ∨ vd ≠ 0) : reservedOverlap vd vs2 vm = none := by
  rw [reservedOverlap_eq_none_iff]
  rintro (h | ⟨rfl, h⟩)
  · exact hne h
  · exact hv0.elim nofun fun h' => h' h

/-- The static verdict of `vid.v` (R61 b, R62). -/
theorem reservedVid_eq_none_iff (vd vs2 : RegNum) (vm : Bool) :
    reservedVid vd vs2 vm = none ↔ ¬(vs2 ≠ 0 ∨ (vm = false ∧ vd = 0)) := by
  unfold reservedVid
  split_ifs with h h'
  · exact iff_of_false nofun fun hn => hn (.inl h)
  · exact iff_of_false nofun fun hn => hn (.inr h')
  · exact iff_of_true rfl (not_or.mpr ⟨h, h'⟩)

/-- The model's test of alignment is the statements' one (R63). -/
theorem groupMisaligned_iff (s : State) (vd : RegNum) :
    s.groupMisaligned vd = true ↔ ¬GroupAligned s vd :=
  decide_eq_true_iff

theorem reservedIota_of_misaligned {s : State} {vd : RegNum} (vs2 : RegNum)
    (h : ¬GroupAligned s vd) : s.reservedIota vd vs2 = some .groupMisaligned := by
  rw [State.reservedIota, if_pos ((groupMisaligned_iff s vd).mpr h)]

theorem reservedIota_of_inGroup {s : State} {vd vs2 : RegNum} (ha : GroupAligned s vd)
    (h : InGroup s vd vs2) : s.reservedIota vd vs2 = some .groupOverlapsSource := by
  rw [State.reservedIota, if_neg fun hm => (groupMisaligned_iff s vd).mp hm ha]
  exact if_pos h

theorem reservedIota_eq_none {s : State} {vd vs2 : RegNum} (ha : GroupAligned s vd)
    (h : ¬InGroup s vd vs2) : s.reservedIota vd vs2 = none := by
  rw [State.reservedIota, if_neg fun hm => (groupMisaligned_iff s vd).mp hm ha]
  exact if_neg h

theorem reservedId_of_misaligned {s : State} {vd : RegNum} (h : ¬GroupAligned s vd) :
    s.reservedId vd = some .groupMisaligned := by
  rw [State.reservedId, if_pos ((groupMisaligned_iff s vd).mpr h)]

theorem reservedId_eq_none {s : State} {vd : RegNum} (h : GroupAligned s vd) :
    s.reservedId vd = none := by
  rw [State.reservedId, if_neg fun hm => (groupMisaligned_iff s vd).mp hm h]

/-- A register is in its own group. -/
theorem inGroup_self (s : State) (vd : RegNum) : InGroup s vd vd := by
  refine ⟨le_rfl, Nat.lt_add_of_pos_right ?_⟩
  rcases s.vtype.groupSize_cases with h | h | h | h <;> rw [h] <;> decide

/-- `viota.m` is reserved, statically or by LMUL, when its group holds the source or `v0` is its
mask and destination (R62). -/
theorem exec_viota_reserved {s : State} {vd vs2 : RegNum} {vm : Bool} (hs : s.Ready)
    (ha : GroupAligned s vd) (h : InGroup s vd vs2 ∨ (vm = false ∧ vd = 0)) :
    ∃ why, exec (.viota vd vs2 vm) s = reservedOutcome why (encode (.viota vd vs2 vm)) s := by
  cases hr : staticReserved (.viota vd vs2 vm) with
  | some why => exact ⟨why, exec_of_staticReserved hs.1 hr⟩
  | none =>
    obtain hin | hv0 := h
    · exact ⟨_, exec_of_reservedByLmul hs hr (reservedIota_of_inGroup ha hin)⟩
    · exact absurd (.inr hv0) ((reservedOverlap_eq_none_iff vd vs2 vm).mp hr)

/-- Settles O39: the static verdicts family by family, then the two of `viota.m` that need LMUL. -/
theorem overlapIsReserved : Obligations.OverlapIsReserved := by
  refine ⟨fun make hmake vd vs2 vm => ?_, fun vd vs2 vs1 make hmake => ?_,
    fun rd vs2 vm => ⟨rfl, rfl⟩, fun vd vm => ?_, fun vd vs2 vm s hs ha => ⟨?_, ?_⟩⟩
  · obtain ⟨hstatic, -⟩ := checks_of_mem_setFirsts hmake State.reset vd vs2 vm
    rw [hstatic, ne_eq, reservedOverlap_eq_none_iff, not_not]
  · exact staticReserved_logical hmake vd vs2 vs1 true
  · show reservedVid vd 0 vm ≠ none ↔ _
    rw [ne_eq, reservedVid_eq_none_iff, not_not, or_iff_right fun h => h rfl]
  · exact exec_viota_reserved hs ha
  · intro hout hv0
    have hne : vd ≠ vs2 := fun h => hout (h ▸ inGroup_self s vd)
    have hstatic : staticReserved (.viota vd vs2 vm) = none := reservedOverlap_eq_none hne hv0
    have hl := reservedIota_eq_none ha hout
    exact ⟨hstatic, hl, fun hz => ⟨_, exec_eq_completed hs hstatic hl fun _ => hz⟩,
      exec_of_vstart hs hstatic hl rfl⟩

/-- Settles O40: a group of one register is aligned, and the check by LMUL finds the others. -/
theorem misalignedGroupIsReserved : Obligations.MisalignedGroupIsReserved := by
  intro vd vs2 vm s hs ha
  refine ⟨?_, fun hi => exec_of_reservedByLmul hs hi (reservedIota_of_misaligned vs2 ha),
    fun hi => exec_of_reservedByLmul hs hi (reservedId_of_misaligned ha)⟩
  rcases s.vtype.groupSize_cases with h | h | h | h
  · exact absurd (show vd.toNat % s.vtype.groupSize = 0 by rw [h, Nat.mod_one]) ha
  all_goals rw [h]; decide

/-- Settles O42: the last check is made by the six instructions that need `vstart` 0, and by no
other. -/
theorem nonzeroVstartRaisesInSix : Obligations.NonzeroVstartRaisesInSix := by
  intro d vs2 vs1 vm s hs hz
  refine ⟨exec_of_vstart hs rfl rfl rfl hz, exec_of_vstart hs rfl rfl rfl hz,
    fun make hmake hwf => ?_,
    fun hwf ha hout => exec_of_vstart hs hwf (reservedIota_eq_none ha hout) rfl hz,
    fun make hmake => ⟨_, exec_logical_completes hmake hs d vs2 vs1⟩,
    fun hwf ha => ⟨_, exec_eq_completed hs hwf (reservedId_eq_none ha) nofun⟩⟩
  obtain ⟨-, hl, hn⟩ := checks_of_mem_setFirsts hmake s d vs2 vm
  exact exec_of_vstart hs hwf hl hn hz

/-! ### What completing leaves alone -/

/-- Completing leaves the control state and the program text alone (R26, R42). -/
theorem sameControl_completed (s : State) (i : Instr) : SameControl s (completed s i) :=
  ⟨completed_params s i, completed_vl s i, completed_vtype s i, completed_trap s i,
    fun a => by rw [completed_mem]⟩

/-- Completing moves on to the next instruction (R13). -/
theorem advanced_completed (s : State) (i : Instr) : Advanced s (completed s i) := completed_pc s i

/-- Equal scalar registers all read the same. -/
theorem sameX_of_x_eq {s t : State} (h : t.x = s.x) (written : List RegNum) : SameX s t written :=
  fun r _ => readX_eq_of_x_eq h r

/-- A scalar write leaves the other scalar registers alone. -/
theorem sameX_writeX_advance (s : State) (r : RegNum) (w : XWord) :
    SameX s (s.writeX r w).advance [r] := by
  intro n hn
  rw [readX_advance, State.readX_writeX, if_neg fun h => hn (List.mem_singleton.mpr h.1)]

/-- A scalar write leaves the vector registers alone. -/
theorem sameV_writeX_advance (s : State) (r : RegNum) (w : XWord) (written : RegNum → Prop) :
    SameV s (s.writeX r w).advance written :=
  fun n _ => readV_eq_of_v_eq (s.writeX_v r w) n

/-- A logical instruction writes one vector register. -/
theorem sameV_logical (s : State) (f : Bool → Bool → Bool) (vd vs2 vs1 : RegNum) :
    SameV s (s.logical f vd vs2 vs1) (· = vd) :=
  fun n hn => (readV_logical s f vd vs2 vs1 n).trans (if_neg hn)

/-- In its destination a set-first instruction leaves the new mask, in any other register what it
held (R103). -/
theorem readV_setFirst (s : State) (g : Option Nat → Nat → Bool) (vd vs2 : RegNum) (vm : Bool)
    (n : RegNum) :
    (s.setFirst g vd vs2 vm).readV n =
      if n = vd then s.newMask vd vm (g (s.firstSet vs2 vm)) else s.readV n :=
  s.readV_writeV vd n _

/-- A set-first instruction writes one vector register. -/
theorem sameV_setFirst (s : State) (g : Option Nat → Nat → Bool) (vd vs2 : RegNum) (vm : Bool) :
    SameV s (s.setFirst g vd vs2 vm) (· = vd) :=
  fun n hn => (readV_setFirst s g vd vs2 vm n).trans (if_neg hn)

/-- A group write leaves the registers outside the group alone (R17). -/
theorem sameV_newGroup {s t : State} {vd : RegNum} {vm : Bool} {value : Nat → Nat}
    (h : t.v = s.newGroup vd vm value) : SameV s t (InGroup s vd) := by
  intro n hn
  rw [readV_eq_of_v_eq (s := s.setV (s.newGroup vd vm value)) h, State.readV_newGroup]
  exact if_neg hn

/-- What `viota.m` leaves of the vector registers (R110). -/
theorem completed_viota_v (s : State) (vd vs2 : RegNum) (vm : Bool) :
    (completed s (.viota vd vs2 vm)).v = s.newGroup vd vm (s.countBelow vs2 vm) :=
  rfl

/-- What `vid.v` leaves of the vector registers (R115). -/
theorem completed_vid_v (s : State) (vd vs2 : RegNum) (vm : Bool) :
    (completed s (.vid vd vs2 vm)).v = s.newGroup vd vm fun i => i :=
  rfl

/-- `viota.m` and `vid.v` write no scalar register (R12). -/
theorem completed_element_x (s : State) (vd vs2 : RegNum) (vm : Bool) :
    (completed s (.viota vd vs2 vm)).x = s.x ∧ (completed s (.vid vd vs2 vm)).x = s.x := by
  simp only [completed, State.advance_x, State.nextDraw_x, State.setVstart_x, State.setV_x,
    and_self]

/-! ### Frames -/

/-- A next state is the trap entry's, or the one completing leaves. -/
theorem trapOr_of_completed {i : Instr} {s t : State} {effect : Prop} (h : exec i s = .next t)
    (hdone : t = completed s i → effect) : TrapOr i s t effect := by
  obtain ⟨ht, -⟩ | ⟨hraise, -⟩ := exec_next h
  · exact .inr (hdone ht)
  · exact .inl hraise

/-- Settles O33: the next state of a completing logical instruction. -/
theorem logicalFrame : Obligations.LogicalFrame := by
  intro make hmake vd vs2 vs1 vm s t h
  refine trapOr_of_completed h ?_
  rintro rfl
  obtain ⟨-, hn⟩ := checks_of_mem_logicals hmake s vd vs2 vs1 vm
  obtain ⟨f, hf⟩ := completed_of_mem_logicals hmake
  refine ⟨?_, ?_, by rw [completed_vstart, hn]; rfl, sameControl_completed s _⟩
  · rw [hf]
    exact sameV_logical s f vd vs2 vs1
  · rw [hf]
    exact sameX_of_x_eq rfl []

/-- Settles O34: the next state of a completing scalar result is one scalar write. -/
theorem scalarResultFrame : Obligations.ScalarResultFrame := by
  intro make hmake rd vs2 vm s t h
  refine trapOr_of_completed h ?_
  rintro rfl
  have hwrite : needsVstartZero (make rd vs2 vm) = true ∧
      ∃ w, completed s (make rd vs2 vm) = (s.writeX rd w).advance := by
    simp only [List.mem_cons, List.not_mem_nil, or_false] at hmake
    obtain rfl | rfl := hmake <;> exact ⟨rfl, _, rfl⟩
  obtain ⟨hn, w, hw⟩ := hwrite
  refine ⟨?_, ?_, readX_zero _, by rw [completed_vstart, hn]; rfl, sameControl_completed s _⟩
  · rw [hw]
    exact sameV_writeX_advance s rd w _
  · rw [hw]
    exact sameX_writeX_advance s rd w

/-- Settles O35: the next state of a completing set-first instruction. -/
theorem setFirstFrame : Obligations.SetFirstFrame := by
  intro make hmake vd vs2 vm s t h
  refine trapOr_of_completed h ?_
  rintro rfl
  obtain ⟨-, -, hn⟩ := checks_of_mem_setFirsts hmake s vd vs2 vm
  obtain ⟨g, hg⟩ := completed_of_mem_setFirsts hmake
  refine ⟨?_, ?_, by rw [completed_vstart, hn]; rfl, sameControl_completed s _⟩
  · rw [hg]
    exact sameV_setFirst s g vd vs2 vm
  · rw [hg]
    exact sameX_of_x_eq rfl []

/-- Settles O36: the next state of a completing element result is one group write. -/
theorem elementResultFrame : Obligations.ElementResultFrame := by
  refine fun vd vs2 vm s t => ⟨fun h => ?_, fun h => ?_⟩
  · refine trapOr_of_completed h ?_
    rintro rfl
    exact ⟨sameV_newGroup (completed_viota_v s vd vs2 vm),
      sameX_of_x_eq (completed_element_x s vd vs2 vm).1 [], completed_vstart s _,
      sameControl_completed s _⟩
  · refine trapOr_of_completed h ?_
    rintro rfl
    exact ⟨sameV_newGroup (completed_vid_v s vd vs2 vm),
      sameX_of_x_eq (completed_element_x s vd vs2 vm).2 [], completed_vstart s _,
      sameControl_completed s _⟩

end Sys2Proof.Proofs

/-! PROOF. The eight mask-register logical instructions (R70 to R77, R83 to R85). -/

namespace Sys2Proof.Proofs

open Sys2Proof.Machine Sys2Proof.Claims

/-- An unmasked mask destination, class by class: no element is inactive, so `vtype` plays no part
(R28, R84). -/
theorem newMaskBit_unmasked (s : State) (vd : RegNum) (body : Nat → Bool) (i : Nat) :
    s.newMaskBit vd true body i =
      if i < s.vstart then s.maskBit vd i
      else if i < s.vl then body i
      else Config.freeBit s.draws i := by
  rw [s.newMaskBit_eq]
  by_cases hvl : i < s.vl
  · simp only [State.enabled, Bool.true_or, if_true, hvl, hvl.not_ge, if_false]
  · simp only [hvl, Nat.not_lt.mp hvl, if_true, if_false]

/-- R83 for one logical instruction, from its word and the function it completes with. -/
theorem logicalRule_of {funct6 : BitVec 6} {make : RegNum → RegNum → RegNum → Bool → Instr}
    {f : Bool → Bool → Bool} (hmake : make ∈ logicals)
    (hword : ∀ vd vs2 vs1 vm, encode (make vd vs2 vs1 vm) = assemble funct6 vm vs2 vs1 vd)
    (hdone : ∀ s vd vs2 vs1 vm, completed s (make vd vs2 vs1 vm) = s.logical f vd vs2 vs1) :
    LogicalRule funct6 make f := by
  intro vd vs2 vs1 vm s hs
  have hstatic := staticReserved_logical hmake vd vs2 vs1 vm
  refine ⟨hword vd vs2 vs1 vm, ?_, ?_, ?_⟩
  · rintro rfl
    exact exec_of_staticReserved hs hstatic
  · rintro rfl hvill
    exact exec_of_off_or_vill hs hstatic (.inr hvill)
  · rintro rfl he hvill
    refine ⟨s.logical f vd vs2 vs1, ?_, fun i hi => ?_, rfl, ?_, sameV_logical s f vd vs2 vs1,
      sameX_of_x_eq rfl [], ?_⟩
    · rw [← hdone s vd vs2 vs1 true]
      exact exec_logical_completes hmake ⟨hs, he, hvill⟩ vd vs2 vs1
    · rw [maskBit_logical s f vd vs2 vs1 hi, newMaskBit_unmasked]
    · exact hdone s vd vs2 vs1 true ▸ advanced_completed s _
    · exact hdone s vd vs2 vs1 true ▸ sameControl_completed s _

/-- Settles O1, by the shared rule with AND. -/
theorem vmandWritesAnd : Obligations.VmandWritesAnd :=
  logicalRule_of (by simp [logicals]) (fun _ _ _ _ => rfl) fun _ _ _ _ _ => rfl

/-- Settles O2, by the shared rule with the complement of AND. -/
theorem vmnandWritesComplementOfAnd : Obligations.VmnandWritesComplementOfAnd :=
  logicalRule_of (by simp [logicals]) (fun _ _ _ _ => rfl) fun _ _ _ _ _ => rfl

/-- Settles O3, by the shared rule with AND of `vs2` and the complement of `vs1`. -/
theorem vmandnotComplementsVs1 : Obligations.VmandnotComplementsVs1 :=
  logicalRule_of (by simp [logicals]) (fun _ _ _ _ => rfl) fun _ _ _ _ _ => rfl

/-- Settles O4, by the shared rule with exclusive OR. -/
theorem vmxorWritesExclusiveOr : Obligations.VmxorWritesExclusiveOr :=
  logicalRule_of (by simp [logicals]) (fun _ _ _ _ => rfl) fun _ _ _ _ _ => rfl

/-- Settles O5, by the shared rule with OR. -/
theorem vmorWritesOr : Obligations.VmorWritesOr :=
  logicalRule_of (by simp [logicals]) (fun _ _ _ _ => rfl) fun _ _ _ _ _ => rfl

/-- Settles O6, by the shared rule with the complement of OR. -/
theorem vmnorWritesComplementOfOr : Obligations.VmnorWritesComplementOfOr :=
  logicalRule_of (by simp [logicals]) (fun _ _ _ _ => rfl) fun _ _ _ _ _ => rfl

/-- Settles O7, by the shared rule with OR of `vs2` and the complement of `vs1`. -/
theorem vmornotComplementsVs1 : Obligations.VmornotComplementsVs1 :=
  logicalRule_of (by simp [logicals]) (fun _ _ _ _ => rfl) fun _ _ _ _ _ => rfl

/-- Settles O8, by the shared rule with the complement of exclusive OR. -/
theorem vmxnorWritesComplementOfXor : Obligations.VmxnorWritesComplementOfXor :=
  logicalRule_of (by simp [logicals]) (fun _ _ _ _ => rfl) fun _ _ _ _ _ => rfl

/-! ### The sixteen functions (R85) -/

/-- Every function of two bits is in the table. -/
theorem exists_row_of_function (f : Bool → Bool → Bool) :
    ∃ row ∈ sixteenFunctions, ∀ a b, rowOutput row.1 a b = f a b := by
  revert f
  decide

/-- The instruction of each row completes in every ready state. -/
theorem exec_row {row : (Bool × Bool × Bool × Bool) × (RegNum → RegNum → RegNum → Instr)}
    (hrow : row ∈ sixteenFunctions) (vd src1 src2 : RegNum) {s : State} (hs : s.Ready) :
    exec (row.2 vd src1 src2) s = .next (completed s (row.2 vd src1 src2)) := by
  simp only [sixteenFunctions, List.mem_cons, List.not_mem_nil, or_false] at hrow
  rcases hrow with rfl | rfl | rfl | rfl | rfl | rfl | rfl | rfl | rfl | rfl | rfl | rfl | rfl |
    rfl | rfl | rfl
  all_goals exact exec_eq_completed hs rfl rfl nofun

/-- The instruction of each row computes the output of the row from the old bits of its sources. -/
theorem completed_row {row : (Bool × Bool × Bool × Bool) × (RegNum → RegNum → RegNum → Instr)}
    (hrow : row ∈ sixteenFunctions) (vd src1 src2 : RegNum) :
    ∃ f r1 r2, (∀ s, completed s (row.2 vd src1 src2) = s.logical f vd r1 r2) ∧
      ∀ (s : State) (i : Nat), f (s.maskBit r1 i) (s.maskBit r2 i) =
        rowOutput row.1 (s.maskBit src1 i) (s.maskBit src2 i) := by
  simp only [sixteenFunctions, List.mem_cons, List.not_mem_nil, or_false] at hrow
  rcases hrow with rfl | rfl | rfl | rfl | rfl | rfl | rfl | rfl | rfl | rfl | rfl | rfl | rfl |
    rfl | rfl | rfl
  all_goals
    simp only [completed]
    refine ⟨_, _, _, fun _ => rfl, fun s i => ?_⟩
    cases s.maskBit vd i <;> cases s.maskBit src1 i <;> cases s.maskBit src2 i <;> rfl

/-- Settles O9: the table holds every function, and a body element gets the function of its row. -/
theorem eightLogicalsGiveSixteenFunctions : Obligations.EightLogicalsGiveSixteenFunctions := by
  refine ⟨exists_row_of_function, fun row hrow vd src1 src2 s hs => ?_⟩
  obtain ⟨f, r1, r2, hdone, hf⟩ := completed_row hrow vd src1 src2
  refine ⟨_, exec_row hrow vd src1 src2 hs, fun i hlo hhi => ?_⟩
  rw [hdone, maskBit_logical_body hs f vd r1 r2 hlo hhi, hf]

/-! ### Independence of `vtype` (R84) -/

/-- An unmasked new mask is the same whatever `vtype` is. -/
theorem newMask_unmasked_vtype (s : State) (vt : VType) (vd : RegNum) (body : Nat → Bool) :
    State.newMask { s with vtype := vt } vd true body = s.newMask vd true body := by
  refine List.map_congr_left fun i _ => ?_
  rw [newMaskBit_unmasked, newMaskBit_unmasked]
  rfl

/-- A logical instruction leaves the same vector registers whatever `vtype` is. -/
theorem logical_v_vtype (s : State) (vt : VType) (f : Bool → Bool → Bool) (vd vs2 vs1 : RegNum) :
    (State.logical { s with vtype := vt } f vd vs2 vs1).v = (s.logical f vd vs2 vs1).v :=
  congrArg (fun r => s.v.set vd.toNat r (regNum_lt vd)) (newMask_unmasked_vtype s vt vd _)

/-- Settles O11: both states pass the checks, and the masks written agree. -/
theorem logicalsIgnoreSewAndLmul : Obligations.LogicalsIgnoreSewAndLmul := by
  intro make hmake vd vs2 vs1 s vt hs hs'
  obtain ⟨f, hf⟩ := completed_of_mem_logicals hmake
  refine ⟨_, _, exec_logical_completes hmake hs vd vs2 vs1,
    exec_logical_completes hmake hs' vd vs2 vs1, ?_, completed_vtype _ _⟩
  rw [hf, hf, logical_v_vtype]

end Sys2Proof.Proofs

/-! PROOF. The scalar results (R90, R95) and the set-first instructions (R100 to R106): counting and
searching the active set elements. -/

namespace Sys2Proof.Proofs

open Sys2Proof.Machine Sys2Proof.Claims

/-! ### Counting and searching -/

/-- The model's test of the execution mask is the statements' one (R29). -/
theorem enabled_iff (s : State) (vm : Bool) (i : Nat) : s.enabled vm i = true ↔ Enabled s vm i := by
  simp only [State.enabled, Enabled, Bool.or_eq_true]

/-- A count one element further. -/
theorem countBelow_succ (s : State) (vs2 : RegNum) (vm : Bool) (n : Nat) :
    s.countBelow vs2 vm (n + 1) = s.countBelow vs2 vm n + (s.activeSet vs2 vm n).toNat := by
  rw [State.countBelow, List.range_succ, List.countP_append, List.countP_singleton,
    State.countBelow]
  cases s.activeSet vs2 vm n <;> rfl

/-- The model's count is the statements' one (R90). -/
theorem countBelow_eq_setCount (s : State) (vs2 : RegNum) (vm : Bool) (n : Nat) :
    s.countBelow vs2 vm n = setCount s vs2 vm n := by
  classical
  have hcount : s.countBelow vs2 vm n = Nat.count (fun i => s.activeSet vs2 vm i = true) n := by
    simp only [State.countBelow, Nat.count, Bool.decide_eq_true]
  rw [hcount, Nat.count_eq_card_filter_range, setCount]
  simp only [activeSet_iff]

/-- The search finds the lowest active set index (R95). -/
theorem firstSet_eq_some_iff_isFirst (s : State) (vs2 : RegNum) (vm : Bool) (k : Nat) :
    s.firstSet vs2 vm = some k ↔ IsFirst s vs2 vm k := by
  simp only [State.firstSet_eq_some, IsFirst, ← Bool.not_eq_true, activeSet_iff]
  tauto

/-- A count below `vl` is far below 2^(XLEN-1) (R5). -/
theorem countBelow_vl_lt_signBit {s : State} (hs : s.illFormed = none) (vs2 : RegNum) (vm : Bool) :
    s.countBelow vs2 vm s.vl < 2 ^ (xlenBits s.params.xlen - 1) :=
  ((s.countBelow_le vs2 vm s.vl).trans (State.vl_le_vlen hs)).trans_lt
    (vlen_lt_signBit (s.illFormed_eq_none.mp hs).1)

/-- The count read back from the destination of `vpopc.m` (R90). -/
theorem readX_completed_vpopc_toNat {s : State} (hs : s.illFormed = none) {rd : RegNum}
    (vs2 : RegNum) (vm : Bool) (h : rd ≠ 0) :
    ((completed s (.vpopc rd vs2 vm)).readX rd).toNat = s.countBelow vs2 vm s.vl := by
  rw [readX_completed_vpopc s vs2 vm h, truncX_ofNat_toNat _ (countBelow_vl_lt_signBit hs vs2 vm)]

/-! ### `vpopc.m` and `vfirst.m` -/

/-- The second check and the last one both raise in a scalar result, which is never reserved
(R126). -/
theorem exec_scalar_raises {i : Instr} {s : State} (hs : s.illFormed = none)
    (hi : staticReserved i = none) (hl : reservedByLmul s i = none) (hn : needsVstartZero i = true)
    (h : s.vtype.vill = true ∨ s.vstart ≠ 0) : exec i s = raiseIllegal (encode i) s := by
  by_cases hoff : s.params.vectorEnabled = false ∨ s.vtype.vill = true
  · exact exec_of_off_or_vill hs hi hoff
  · obtain ⟨he, hvill⟩ := not_or.mp hoff
    exact exec_of_vstart ⟨hs, Bool.not_eq_false _ ▸ he, Bool.not_eq_true _ ▸ hvill⟩ hi hl hn
      (h.resolve_left hvill)

/-- Settles O12: the count is below 2^(XLEN-1), so it is read back as it is. -/
theorem vpopcCountsActiveSetElements : Obligations.VpopcCountsActiveSetElements := by
  intro rd vs2 vm s hs
  refine ⟨rfl, exec_scalar_raises hs rfl rfl rfl, fun he hvill hz => ?_⟩
  refine ⟨completed s (.vpopc rd vs2 vm), exec_eq_completed ⟨hs, he, hvill⟩ rfl rfl fun _ => hz, ?_,
    (completed_vstart s _).trans hz, advanced_completed s _, sameX_writeX_advance s rd _,
    sameV_writeX_advance s rd _ _, sameControl_completed s _⟩
  split
  · next h => rw [h, readX_zero]; rfl
  · next h => rw [readX_completed_vpopc_toNat hs vs2 vm h, countBelow_eq_setCount]

/-- Settles O13: an index is below 2^(XLEN-1), and -1 is the XLEN-bit value of all ones. -/
theorem vfirstFindsLowestOrMinusOne : Obligations.VfirstFindsLowestOrMinusOne := by
  intro rd vs2 vm s hs
  refine ⟨rfl, exec_scalar_raises hs rfl rfl rfl, fun he hvill hz => ?_⟩
  refine ⟨completed s (.vfirst rd vs2 vm), exec_eq_completed ⟨hs, he, hvill⟩ rfl rfl fun _ => hz,
    fun h => h ▸ readX_zero _, fun h k hk => ?_, fun h hnone => ?_,
    (completed_vstart s _).trans hz, advanced_completed s _, sameX_writeX_advance s rd _,
    sameV_writeX_advance s rd _ _, sameControl_completed s _⟩
  · have hlt : k < 2 ^ (xlenBits s.params.xlen - 1) :=
      (hk.1.trans_le (State.vl_le_vlen hs)).trans (vlen_lt_signBit (s.illFormed_eq_none.mp hs).1)
    rw [readX_completed_vfirst s vs2 vm h, (firstSet_eq_some_iff_isFirst s vs2 vm k).mpr hk]
    exact truncX_ofNat_toNat _ hlt
  · rw [readX_completed_vfirst s vs2 vm h, (firstSet_eq_none_iff_noFirst s vs2 vm).mpr hnone,
      firstResult, truncX_idem, truncX_toNat]
    cases s.params.xlen <;> rfl

/-- Settles O15: a write to `x0` is discarded, so completing is moving on. -/
theorem scalarResultToX0IsDiscarded : Obligations.ScalarResultToX0IsDiscarded := by
  intro vs2 vm s hs
  have hmove (w : XWord) :
      (s.writeX 0 w).advance = { s with pc := truncX s.params.xlen (s.pc + 4) } := by
    rw [State.writeX, if_pos rfl]
    rfl
  refine ⟨fun hz => ⟨?_, ?_⟩, fun hz => ⟨exec_of_vstart hs rfl rfl rfl hz,
    exec_of_vstart hs rfl rfl rfl hz⟩⟩
  · rw [exec_eq_completed hs rfl rfl fun _ => hz, completed, hmove]
  · rw [exec_eq_completed hs rfl rfl fun _ => hz, completed, hmove]

/-! ### Only active body elements are read (R91, R96) -/

/-- Where the execution mask and the active source elements agree, so do the active set elements. -/
theorem activeSet_congr {s s' : State} {vs2 : RegNum} {vm : Bool} {i : Nat}
    (h0 : vm = true ∨ s'.maskBit 0 i = s.maskBit 0 i)
    (h2 : Enabled s vm i → s'.maskBit vs2 i = s.maskBit vs2 i) :
    s'.activeSet vs2 vm i = s.activeSet vs2 vm i := by
  have he : s'.enabled vm i = s.enabled vm i := by
    obtain rfl | h0 := h0
    · rfl
    · rw [State.enabled, h0, State.enabled]
  rw [State.activeSet, he, State.activeSet]
  cases hen : s.enabled vm i with
  | false => rfl
  | true => rw [h2 ((enabled_iff s vm i).mp hen)]

/-- A scalar write does not depend on the vector registers. -/
theorem writeX_x_setV (s : State) (v : Vector VReg 32) (r : RegNum) (w : XWord) :
    ((s.setV v).writeX r w).x = (s.writeX r w).x := by
  unfold State.writeX
  split <;> rfl

/-- Settles O16: the two counts and the two searches agree element by element. -/
theorem scalarResultsReadOnlyActiveBody : Obligations.ScalarResultsReadOnlyActiveBody := by
  intro make hmake rd vs2 vm s v hs hz h0 h2
  have hs' : (s.setV v).Ready := hs
  have hset : ∀ i ∈ List.range s.vl, (s.setV v).activeSet vs2 vm i = s.activeSet vs2 vm i :=
    fun i hi => activeSet_congr (h0 i (List.mem_range.mp hi)) (h2 i (List.mem_range.mp hi))
  have hcount : (s.setV v).countBelow vs2 vm s.vl = s.countBelow vs2 vm s.vl :=
    List.countP_congr fun i hi => by rw [hset i hi]
  have hfirst : (s.setV v).firstSet vs2 vm = s.firstSet vs2 vm := List.find?_congr hset
  simp only [List.mem_cons, List.not_mem_nil, or_false] at hmake
  obtain rfl | rfl := hmake
  · refine ⟨_, _, exec_eq_completed hs rfl rfl fun _ => hz,
      exec_eq_completed hs' rfl rfl fun _ => hz, ?_⟩
    show (completed (s.setV v) (.vpopc rd vs2 vm)).x = (completed s (.vpopc rd vs2 vm)).x
    simp only [completed, State.advance_x, State.setV_vl, hcount, writeX_x_setV]
  · refine ⟨_, _, exec_eq_completed hs rfl rfl fun _ => hz,
      exec_eq_completed hs' rfl rfl fun _ => hz, ?_⟩
    show (completed (s.setV v) (.vfirst rd vs2 vm)).x = (completed s (.vfirst rd vs2 vm)).x
    simp only [completed, State.advance_x, State.setV_params, hfirst, writeX_x_setV]

/-! ### The set-first instructions, element by element (R103) -/

/-- Element `i` of a set-first destination is its new mask bit. -/
theorem maskBit_setFirst (s : State) (g : Option Nat → Nat → Bool) (vd vs2 : RegNum) (vm : Bool)
    {i : Nat} (hi : i < s.params.vlen) :
    (s.setFirst g vd vs2 vm).maskBit vd i = s.newMaskBit vd vm (g (s.firstSet vs2 vm)) i := by
  rw [State.maskBit, readV_setFirst, if_pos rfl]
  exact s.newMask_getD vd vm _ hi

/-- At `vstart = 0` an active element gets the value of its index and the first set one. -/
theorem maskBit_setFirst_active {s : State} (hs : s.illFormed = none) (hz : s.vstart = 0)
    (g : Option Nat → Nat → Bool) (vd vs2 : RegNum) {vm : Bool} {i : Nat} (hi : i < s.vl)
    (he : Enabled s vm i) : (s.setFirst g vd vs2 vm).maskBit vd i = g (s.firstSet vs2 vm) i := by
  rw [maskBit_setFirst s g vd vs2 vm (hi.trans_le (State.vl_le_vlen hs)), State.newMaskBit_eq,
    if_neg (by omega), if_neg (by omega), if_pos ((enabled_iff s vm i).mpr he)]

/-- At `vstart = 0` an inactive element follows `vma` (R31). -/
theorem maskBit_setFirst_inactive {s : State} (hs : s.illFormed = none) (hz : s.vstart = 0)
    (g : Option Nat → Nat → Bool) (vd vs2 : RegNum) {vm : Bool} {i : Nat} (hi : i < s.vl)
    (he : ¬Enabled s vm i) :
    (s.setFirst g vd vs2 vm).maskBit vd i =
      if s.vtype.vma = true then Config.freeBit s.draws i else s.maskBit vd i := by
  rw [maskBit_setFirst s g vd vs2 vm (hi.trans_le (State.vl_le_vlen hs)), State.newMaskBit_eq,
    if_neg (by omega), if_neg (by omega), if_neg fun h => he ((enabled_iff s vm i).mp h)]

/-- At `vstart = 0` a tail element is a free draw (R30). -/
theorem maskBit_setFirst_tail {s : State} (hz : s.vstart = 0) (g : Option Nat → Nat → Bool)
    (vd vs2 : RegNum) (vm : Bool) {i : Nat} (hi : i < s.params.vlen) (hvl : s.vl ≤ i) :
    (s.setFirst g vd vs2 vm).maskBit vd i = Config.freeBit s.draws i := by
  rw [maskBit_setFirst s g vd vs2 vm hi, State.newMaskBit_eq, if_neg (by omega), if_pos hvl]

/-- R103 for one set-first instruction, from its word and the function it completes with. -/
theorem setFirstRule_of {subOp : RegNum} {make : RegNum → RegNum → Bool → Instr}
    {g : Option Nat → Nat → Bool} {rel : Nat → Nat → Prop} {none' : Bool} (hmake : make ∈ setFirsts)
    (hword : ∀ vd vs2 vm, encode (make vd vs2 vm) = assemble 0b010100 vm vs2 subOp vd)
    (hdone : ∀ s vd vs2 vm, completed s (make vd vs2 vm) = s.setFirst g vd vs2 vm)
    (hsome : ∀ k i, g (some k) i = true ↔ rel i k) (hnone : ∀ i, g none i = none') :
    SetFirstRule subOp make rel none' := by
  intro vd vs2 vm s hs
  obtain ⟨hstatic, hl, hn⟩ := checks_of_mem_setFirsts hmake s vd vs2 vm
  have hlegal (hne : vd ≠ vs2) (hv0 : vm = true ∨ vd ≠ 0) :
      staticReserved (make vd vs2 vm) = none :=
    hstatic.trans (reservedOverlap_eq_none hne hv0)
  refine ⟨hword vd vs2 vm, fun h => ?_, fun hne hvm hvd => ?_, fun hne hv0 h => ?_,
    fun hne hv0 he hvill hz => ?_⟩
  · exact exec_of_staticReserved hs (hstatic.trans (if_pos h))
  · exact exec_of_staticReserved hs (hstatic.trans ((if_neg hne).trans (if_pos ⟨hvm, hvd⟩)))
  · exact exec_scalar_raises hs (hlegal hne hv0) hl hn h
  · refine ⟨s.setFirst g vd vs2 vm, ?_, fun i hi hen => ⟨fun k hk => ?_, fun hno => ?_⟩,
      fun i hi hen => maskBit_setFirst_inactive hs hz g vd vs2 hi hen,
      fun i hi hvl => maskBit_setFirst_tail hz g vd vs2 vm hi hvl, hz, ?_,
      sameV_setFirst s g vd vs2 vm, sameX_of_x_eq rfl [], ?_⟩
    · rw [← hdone s vd vs2 vm]
      exact exec_eq_completed ⟨hs, he, hvill⟩ (hlegal hne hv0) hl fun _ => hz
    · rw [maskBit_setFirst_active hs hz g vd vs2 hi hen,
        (firstSet_eq_some_iff_isFirst s vs2 vm k).mpr hk, hsome]
    · rw [maskBit_setFirst_active hs hz g vd vs2 hi hen,
        (firstSet_eq_none_iff_noFirst s vs2 vm).mpr hno, hnone]
    · exact hdone s vd vs2 vm ▸ advanced_completed s _
    · exact hdone s vd vs2 vm ▸ sameControl_completed s _

/-- Settles O17, by the shared rule with `i < k`. -/
theorem vmsbfSetsBeforeFirst : Obligations.VmsbfSetsBeforeFirst :=
  setFirstRule_of (by simp [setFirsts]) (fun _ _ _ => rfl) (fun _ _ _ _ => rfl)
    (fun _ _ => decide_eq_true_iff) fun _ => rfl

/-- Settles O18, by the shared rule with `i ≤ k`. -/
theorem vmsifSetsIncludingFirst : Obligations.VmsifSetsIncludingFirst :=
  setFirstRule_of (by simp [setFirsts]) (fun _ _ _ => rfl) (fun _ _ _ _ => rfl)
    (fun _ _ => decide_eq_true_iff) fun _ => rfl

/-- Settles O19, by the shared rule with `i = k`. -/
theorem vmsofSetsOnlyFirst : Obligations.VmsofSetsOnlyFirst :=
  setFirstRule_of (by simp [setFirsts]) (fun _ _ _ => rfl) (fun _ _ _ _ => rfl)
    (fun _ _ => decide_eq_true_iff) fun _ => rfl

/-! ### How the three results relate (R106) -/

/-- Up to the first is before it or it. -/
theorem includingFirst_eq (first : Option Nat) (i : Nat) :
    includingFirst first i = (beforeFirst first i || onlyFirst first i) := by
  cases first with
  | none => rfl
  | some k =>
    simp only [includingFirst, beforeFirst, onlyFirst, Nat.le_iff_lt_or_eq, Bool.decide_or]

/-- Nothing is both before the first and it. -/
theorem beforeFirst_and_onlyFirst (first : Option Nat) (i : Nat) :
    (beforeFirst first i && onlyFirst first i) = false := by
  cases first with
  | none => rfl
  | some k =>
    simp only [beforeFirst, onlyFirst, ← Bool.decide_and, decide_eq_false_iff_not]
    omega

/-- A set-first instruction with no reserved overlap completes at `vstart = 0`. -/
theorem exec_setFirst_completes {make : RegNum → RegNum → Bool → Instr} (hmake : make ∈ setFirsts)
    {s : State} (hs : s.Ready) (hz : s.vstart = 0) {vd vs2 : RegNum} {vm : Bool} (hne : vd ≠ vs2)
    (hv0 : vm = true ∨ vd ≠ 0) :
    exec (make vd vs2 vm) s = .next (completed s (make vd vs2 vm)) := by
  obtain ⟨hstatic, hl, -⟩ := checks_of_mem_setFirsts hmake s vd vs2 vm
  exact exec_eq_completed hs (hstatic.trans (reservedOverlap_eq_none hne hv0)) hl fun _ => hz

/-- Settles O20: on an active element the three results are the three functions of one first set
element. -/
theorem setFirstResultsRelate : Obligations.SetFirstResultsRelate := by
  intro vd vs2 vm s hs hz hne hv0
  refine ⟨_, _, _, exec_setFirst_completes (by simp [setFirsts]) hs hz hne hv0,
    exec_setFirst_completes (by simp [setFirsts]) hs hz hne hv0,
    exec_setFirst_completes (by simp [setFirsts]) hs hz hne hv0, fun k hk hen => ?_⟩
  have hand := beforeFirst_and_onlyFirst (s.firstSet vs2 vm) k
  simp only [completed, maskBit_setFirst_active hs.1 hz _ vd vs2 hk hen, includingFirst_eq]
  revert hand
  cases beforeFirst (s.firstSet vs2 vm) k <;> cases onlyFirst (s.firstSet vs2 vm) k <;> decide

/-! ### Counting what `vmsbf.m` leaves (R96, R106) -/

/-- How many indices below `n` are below `k`. -/
theorem countP_range_lt (n k : Nat) :
    (List.range n).countP (fun i => decide (i < k)) = min n k := by
  induction n with
  | zero => exact (Nat.zero_min k).symm
  | succ n ih =>
    rw [List.range_succ, List.countP_append, List.countP_singleton, ih]
    by_cases h : n < k
    · simp only [h, decide_true, if_true]
      omega
    · simp only [h, decide_false, Bool.false_eq_true, if_false]
      omega

/-- Unmasked, where the elements of the source below `n` are `p`, the count is that of `p`. -/
theorem countBelow_unmasked {s : State} {vs2 : RegNum} {p : Nat → Bool} {n : Nat}
    (h : ∀ i < n, s.maskBit vs2 i = p i) : s.countBelow vs2 true n = (List.range n).countP p :=
  List.countP_congr fun i hi => by rw [State.activeSet, h i (List.mem_range.mp hi)]; rfl

/-- The number of elements before the first set one: its index, or all of them. -/
theorem countBelow_vmsbf {s : State} (hs : s.Ready) (hz : s.vstart = 0) (vd vs2 : RegNum) :
    (completed s (.vmsbf vd vs2 true)).countBelow vd true s.vl =
      (s.firstSet vs2 true).getD s.vl := by
  have hbody : ∀ i < s.vl, (completed s (.vmsbf vd vs2 true)).maskBit vd i =
      beforeFirst (s.firstSet vs2 true) i :=
    fun i hi => maskBit_setFirst_active hs.1 hz beforeFirst vd vs2 hi (.inl rfl)
  rw [countBelow_unmasked hbody]
  cases hk : s.firstSet vs2 true with
  | none => exact (congrFun List.countP_true _).trans List.length_range
  | some k => exact (countP_range_lt s.vl k).trans (min_eq_right (firstSet_lt_vl hk).le)

/-- A completing instruction leaves a ready state. -/
theorem ready_of_exec_next {i : Instr} {s t : State} (hs : s.Ready) (h : exec i s = .next t) :
    t.Ready := by
  obtain ⟨hwf, he, hvill⟩ := hs
  obtain ⟨hp, -, hvt, -⟩ := exec_keeps h
  exact ⟨exec_keeps_wellFormed hwf h, hp ▸ he, hvt ▸ hvill⟩

/-- Settles O21: both results are the number of elements before the first set one. -/
theorem popcOfVmsbfIsVfirst : Obligations.PopcOfVmsbfIsVfirst := by
  intro rd vd vs2 s hs hz hne hrd
  have ht := exec_setFirst_completes (make := .vmsbf) (by simp [setFirsts]) hs hz hne (.inl rfl)
  have hready := ready_of_exec_next hs ht
  have hcount := countBelow_vmsbf hs hz vd vs2
  refine ⟨_, _, _, ht, exec_eq_completed hready rfl rfl fun _ => hz,
    exec_eq_completed hs rfl rfl fun _ => hz, fun hsome => ?_, fun hnone => ?_⟩
  · rw [← firstSet_eq_none_iff_noFirst] at hsome
    obtain ⟨k, hk⟩ := Option.ne_none_iff_exists'.mp hsome
    rw [readX_completed_vpopc _ vd true hrd, readX_completed_vfirst s vs2 true hrd, completed_vl,
      completed_params, hcount, hk]
    rfl
  · rw [← firstSet_eq_none_iff_noFirst] at hnone
    rw [readX_completed_vpopc_toNat hready.1 vd true hrd, completed_vl, hcount, hnone]
    rfl

end Sys2Proof.Proofs

/-! PROOF. Elements of a register group as mask bits (R17), the element results `viota.m` and
`vid.v` (R110 to R117), the quantities derived from `vtype` (R24), and the control and status
registers by number (R20 to R25). -/

namespace Sys2Proof.Proofs

open Sys2Proof.Machine Sys2Proof.Claims

/-! ### Elements bit by bit (R17) -/

/-- The bits of a number made of bits. -/
theorem testBit_natOfBits (bits : List Bool) (b : Nat) :
    (natOfBits bits).testBit b = bits.getD b false := by
  induction bits generalizing b with
  | nil => simp [natOfBits]
  | cons a rest ih =>
    have hbit : natOfBits (a :: rest) = Nat.bit a (natOfBits rest) := by
      rw [Nat.bit_val, Nat.add_comm]
      rfl
    cases b with
    | zero => rw [hbit, Nat.testBit_bit_zero]; rfl
    | succ b => rw [hbit, Nat.testBit_bit_succ, ih]; rfl

/-- Bit `b` of element `i` of the group at `n` is a mask bit of its register,
`n + floor(i*SEW / VLEN)`. -/
theorem testBit_elt (s : State) {n m : RegNum} {i : Nat}
    (hm : m.toNat = n.toNat + i * s.vtype.sew / s.params.vlen) (b : Nat) :
    (s.elt n i).testBit b =
      (decide (b < s.vtype.sew) && s.maskBit m (i * s.vtype.sew % s.params.vlen + b)) := by
  have hreg : s.v[n.toNat + i * s.vtype.sew / s.params.vlen]?.getD [] = s.readV m := by
    rw [← hm, Vector.getElem?_eq_getElem (regNum_lt m)]
    rfl
  rw [State.elt, hreg, testBit_natOfBits, State.maskBit]
  by_cases hb : b < s.vtype.sew
  · simp [List.getD, hb, List.getElem?_drop]
  · simp [List.getD, hb]

/-- Settles O26: an element takes SEW bits of its register, which are its mask bits. -/
theorem elementAndMaskViewsAlias : Obligations.ElementAndMaskViewsAlias := by
  intro n m i b s _ _ hb hm
  rw [testBit_elt s hm, decide_eq_true hb, Bool.true_and]

/-- An element is below 2^SEW. -/
theorem elt_lt (s : State) (n : RegNum) (i : Nat) : s.elt n i < 2 ^ s.vtype.sew := by
  refine Nat.lt_pow_two_of_testBit _ fun b hb => ?_
  rw [State.elt, testBit_natOfBits]
  simp [List.getD, Nat.not_lt.mpr hb]

/-- Numbers below 2^SEW that agree on SEW bits are equal. -/
theorem eq_of_testBit_below {sew x y : Nat} (hx : x < 2 ^ sew) (hy : y < 2 ^ sew)
    (h : ∀ b < sew, x.testBit b = y.testBit b) : x = y := by
  refine Nat.eq_of_testBit_eq fun b => ?_
  by_cases hb : b < sew
  · exact h b hb
  · have hle : 2 ^ sew ≤ 2 ^ b := Nat.pow_le_pow_right Nat.two_pos (Nat.not_lt.mp hb)
    rw [Nat.testBit_lt_two_pow (hx.trans_le hle), Nat.testBit_lt_two_pow (hy.trans_le hle)]

/-! ### The registers of a group (R17, R28) -/

/-- In a ready state `vtype` is legal for parameters in range (R35). -/
theorem legal_of_ready {s : State} (hs : s.Ready) :
    paramsOk s.params = true ∧ s.vtype.legal s.params = true ∧
      s.vl ≤ s.vtype.vlmax s.params.vlen := by
  obtain ⟨hwf, -, hvill⟩ := hs
  obtain ⟨hp, -, -, -, -, hlegal⟩ := s.illFormed_eq_none.mp hwf
  exact ⟨hp, hlegal hvill⟩

theorem sew_pos (t : VType) : 0 < t.sew := Nat.mul_pos (by decide) (Nat.two_pow_pos _)

theorem vlen_pos {p : Params} (h : paramsOk p = true) : 0 < p.vlen := by
  obtain ⟨k, hk, -⟩ := paramsOk_vlen h
  exact hk ▸ Nat.two_pow_pos k

/-- An aligned group ends at `v31` or before. -/
theorem group_end_le {s : State} {vd : RegNum} (ha : GroupAligned s vd) :
    vd.toNat + s.vtype.groupSize ≤ 32 := by
  have hlt := regNum_lt vd
  unfold GroupAligned at ha
  rcases s.vtype.groupSize_cases with h | h | h | h <;> rw [h] at ha ⊢ <;> omega

/-- Element `i` of a group lies in a register of the group. -/
theorem element_register {s : State} (hs : s.Ready) {vd : RegNum} (ha : GroupAligned s vd) {i : Nat}
    (hi : i < s.groupElements) :
    ∃ m : RegNum, m.toNat = vd.toNat + i * s.vtype.sew / s.params.vlen ∧ InGroup s vd m := by
  obtain ⟨hp, -⟩ := legal_of_ready hs
  have hsew := sew_pos s.vtype
  have hfit : (i + 1) * s.vtype.sew ≤ s.vtype.groupSize * s.params.vlen :=
    (Nat.le_div_iff_mul_le hsew).mp hi
  have hreg : i * s.vtype.sew / s.params.vlen < s.vtype.groupSize := by
    rw [Nat.div_lt_iff_lt_mul (vlen_pos hp)]
    refine Nat.lt_of_lt_of_le ?_ hfit
    rw [Nat.succ_mul]
    omega
  have hend := group_end_le ha
  have hm : (BitVec.ofNat 5 (vd.toNat + i * s.vtype.sew / s.params.vlen)).toNat =
      vd.toNat + i * s.vtype.sew / s.params.vlen := by
    rw [BitVec.toNat_ofNat, Nat.mod_eq_of_lt ((Nat.add_lt_add_left hreg _).trans_le hend)]
  exact ⟨_, hm, hm.symm ▸ Nat.le_add_right _ _, hm.trans_lt (Nat.add_lt_add_left hreg _)⟩

/-- An element does not run over the end of its register: SEW divides VLEN. -/
theorem element_bit_lt {s : State} (hs : s.Ready) (i : Nat) {b : Nat} (hb : b < s.vtype.sew) :
    i * s.vtype.sew % s.params.vlen + b < s.params.vlen := by
  obtain ⟨hp, hlegal, -⟩ := legal_of_ready hs
  obtain ⟨q, hq⟩ := sew_dvd_vlen hp hlegal
  have hq0 : 0 < q := Nat.pos_of_mul_pos_left (hq ▸ vlen_pos hp)
  rw [hq, Nat.mul_comm s.vtype.sew q, Nat.mul_mod_mul_right]
  calc i % q * s.vtype.sew + b < (i % q + 1) * s.vtype.sew := by rw [Nat.succ_mul]; omega
    _ ≤ q * s.vtype.sew := Nat.mul_le_mul_right _ (Nat.mod_lt i hq0)

/-! ### A group after it is written -/

section NewGroup

variable {s t : State} {vd : RegNum} {vm : Bool} {value : Nat → Nat} (hs : s.Ready)
  (ha : GroupAligned s vd) (hv : t.v = s.newGroup vd vm value) (hp : t.params = s.params)
  (ht : t.vtype = s.vtype) {i : Nat} (hi : i < s.groupElements)
include hs ha hv hp ht hi

/-- Bit `b` of element `i` of the group written, by the class of the element (R28, R31, R32). -/
theorem testBit_elt_newGroup {b : Nat} (hb : b < s.vtype.sew) :
    (t.elt vd i).testBit b =
      if i < s.vstart then (s.elt vd i).testBit b
      else if s.vl ≤ i then
        if s.vtype.vta then Config.freeBit s.draws (i * s.vtype.sew + b) else (s.elt vd i).testBit b
      else if s.enabled vm i then (value i).testBit b
      else if s.vtype.vma then Config.freeBit s.draws (i * s.vtype.sew + b)
      else (s.elt vd i).testBit b := by
  obtain ⟨m, hm, hin⟩ := element_register hs ha hi
  have hpos : (m.toNat - vd.toNat) * s.params.vlen + (i * s.vtype.sew % s.params.vlen + b) =
      i * s.vtype.sew + b := by
    rw [hm, Nat.add_sub_cancel_left, ← Nat.add_assoc, Nat.div_add_mod']
  have hdiv : (i * s.vtype.sew + b) / s.vtype.sew = i := by
    rw [Nat.mul_comm, Nat.mul_add_div (sew_pos _), Nat.div_eq_of_lt hb, Nat.add_zero]
  have hmod : (i * s.vtype.sew + b) % s.vtype.sew = b := by
    rw [Nat.mul_comm, Nat.mul_add_mod, Nat.mod_eq_of_lt hb]
  have hold : (s.elt vd i).testBit b = s.maskBit m (i * s.vtype.sew % s.params.vlen + b) := by
    rw [testBit_elt s hm, decide_eq_true hb, Bool.true_and]
  have hread : t.readV m = s.newGroupReg vm value m (m.toNat - vd.toNat) := by
    rw [readV_eq_of_v_eq (s := s.setV (s.newGroup vd vm value)) hv, State.readV_newGroup]
    exact if_pos hin
  rw [testBit_elt t (m := m) (by rw [hp, ht, hm]), hp, ht, decide_eq_true hb, Bool.true_and,
    State.maskBit, hread, State.newGroupReg_getD _ _ _ _ _ (element_bit_lt hs i hb), hpos,
    State.newGroupBit_eq, hdiv, hmod, hold]

/-- Active elements get the value (R110, R115). -/
theorem elt_newGroup_active (hlo : s.vstart ≤ i) (hhi : i < s.vl) (he : Enabled s vm i) :
    t.elt vd i = value i % 2 ^ s.vtype.sew := by
  refine eq_of_testBit_below (ht ▸ elt_lt t vd i) (Nat.mod_lt _ (Nat.two_pow_pos _)) fun b hb => ?_
  rw [testBit_elt_newGroup hs ha hv hp ht hi hb, if_neg (by omega), if_neg (by omega),
    if_pos ((enabled_iff s vm i).mpr he), Nat.testBit_mod_two_pow, decide_eq_true hb, Bool.true_and]

end NewGroup

/-- The whole group after it is written (R28, R31, R32). -/
theorem groupHolds_newGroup {s t : State} {vd : RegNum} {vm : Bool} {value : Nat → Nat}
    (hs : s.Ready) (ha : GroupAligned s vd) (hv : t.v = s.newGroup vd vm value)
    (hp : t.params = s.params) (ht : t.vtype = s.vtype) : GroupHolds s t vd vm value := by
  intro i hi
  have hbit := fun b hb => testBit_elt_newGroup (b := b) hs ha hv hp ht hi hb
  have hkeep (h : ∀ b < s.vtype.sew, (t.elt vd i).testBit b = (s.elt vd i).testBit b) :
      t.elt vd i = s.elt vd i :=
    eq_of_testBit_below (ht ▸ elt_lt t vd i) (elt_lt s vd i) h
  have hen : s.enabled vm i = true ↔ Enabled s vm i := enabled_iff s vm i
  refine ⟨fun h => hkeep fun b hb => ?_,
    fun hlo hhi he => elt_newGroup_active hs ha hv hp ht hi hlo hhi he,
    fun hlo hhi he hma => hkeep fun b hb => ?_, fun hlo hhi he hma b hb => ?_,
    fun hlo hhi hta => hkeep fun b hb => ?_, fun hlo hhi hta b hb => ?_⟩
  · rw [hbit b hb, if_pos h]
  · rw [hbit b hb, if_neg (by omega), if_neg (by omega), if_neg (he ∘ hen.mp), hma]
    rfl
  · rw [hbit b hb, if_neg (by omega), if_neg (by omega), if_neg (he ∘ hen.mp), if_pos hma]
  · rw [hbit b hb, if_neg (by omega), if_pos hhi, hta]
    rfl
  · rw [hbit b hb, if_neg (by omega), if_pos hhi, if_pos hta]

/-- The active elements are all that a written group takes from the values. -/
theorem newGroup_congr {s : State} {vd : RegNum} {vm : Bool} {value value' : Nat → Nat}
    (h : ∀ i < s.vl, value i = value' i) : s.newGroup vd vm value = s.newGroup vd vm value' := by
  have hbit (old p) : s.newGroupBit vm value old p = s.newGroupBit vm value' old p := by
    by_cases hp : p / s.vtype.sew < s.vl
    · rw [State.newGroupBit_eq, State.newGroupBit_eq, h _ hp]
    · rw [State.newGroupBit_eq, State.newGroupBit_eq, if_pos (Nat.not_lt.mp hp),
        if_pos (Nat.not_lt.mp hp)]
  simp only [State.newGroup, State.newGroupReg, hbit]

/-! ### `viota.m` and `vid.v` -/

/-- Settles O22: the checks in their order, and the group written with the counts. -/
theorem viotaWritesPrefixCounts : Obligations.ViotaWritesPrefixCounts := by
  intro vd vs2 vm s hs i static
  have hstatic : ¬static → staticReserved i = none := (reservedOverlap_eq_none_iff vd vs2 vm).mpr
  refine ⟨rfl, fun h => exec_of_staticReserved hs (if_pos h), fun hne hvm hvd =>
    exec_of_staticReserved hs ((if_neg hne).trans (if_pos ⟨hvm, hvd⟩)),
    fun hn hvill => exec_of_off_or_vill hs (hstatic hn) (.inr hvill),
    fun hn he hvill hal => exec_of_reservedByLmul ⟨hs, he, hvill⟩ (hstatic hn)
      (reservedIota_of_misaligned vs2 hal),
    fun hn he hvill hal hin => exec_of_reservedByLmul ⟨hs, he, hvill⟩ (hstatic hn)
      (reservedIota_of_inGroup hal hin),
    fun hn he hvill hal hout hz => exec_of_vstart ⟨hs, he, hvill⟩ (hstatic hn)
      (reservedIota_eq_none hal hout) rfl hz,
    fun hn he hvill hal hout hz => ?_⟩
  have hready : s.Ready := ⟨hs, he, hvill⟩
  have hvalue : setCount s vs2 vm = s.countBelow vs2 vm :=
    funext fun n => (countBelow_eq_setCount s vs2 vm n).symm
  have hv := completed_viota_v s vd vs2 vm
  exact ⟨completed s i,
    exec_eq_completed hready (hstatic hn) (reservedIota_eq_none hal hout) fun _ => hz,
    hvalue ▸ groupHolds_newGroup hready hal hv (completed_params s i) (completed_vtype s i),
    (completed_vstart s i).trans hz, advanced_completed s i, sameV_newGroup hv,
    sameX_of_x_eq (completed_element_x s vd vs2 vm).1 [], sameControl_completed s i⟩

/-- Settles O23: the checks in their order, and the group written with the indices. -/
theorem vidWritesElementIndices : Obligations.VidWritesElementIndices := by
  intro vd vs2 vm s hs i static
  have hstatic : ¬static → staticReserved i = none := (reservedVid_eq_none_iff vd vs2 vm).mpr
  refine ⟨rfl, fun h => exec_of_staticReserved hs (staticReserved_vid_of_source_ne_zero vd vm h),
    fun hz hvm hvd => exec_of_staticReserved hs
      ((if_neg fun h => h hz).trans (if_pos ⟨hvm, hvd⟩)),
    fun hn hvill => exec_of_off_or_vill hs (hstatic hn) (.inr hvill),
    fun hn he hvill hal => exec_of_reservedByLmul ⟨hs, he, hvill⟩ (hstatic hn)
      (reservedId_of_misaligned hal),
    fun hn he hvill hal => ?_⟩
  have hready : s.Ready := ⟨hs, he, hvill⟩
  have hv := completed_vid_v s vd vs2 vm
  exact ⟨completed s i, exec_eq_completed hready (hstatic hn) (reservedId_eq_none hal) nofun,
    groupHolds_newGroup hready hal hv (completed_params s i) (completed_vtype s i),
    completed_vstart s i, advanced_completed s i, sameV_newGroup hv,
    sameX_of_x_eq (completed_element_x s vd vs2 vm).2 [], sameControl_completed s i⟩

/-- `vl` is at most the number of elements of a group: LMUL is at most the group size. -/
theorem vl_le_groupElements {s : State} (hs : s.Ready) : s.vl ≤ s.groupElements := by
  obtain ⟨-, -, hvl⟩ := legal_of_ready hs
  refine hvl.trans (Nat.div_le_div_left ?_ (sew_pos _))
  exact Nat.le_mul_of_pos_left _ (Nat.two_pow_pos _)

/-- Unmasked, with no reserved overlap, `viota.m` completes at `vstart = 0`. -/
theorem exec_viota_completes {s : State} (hs : s.Ready) (hz : s.vstart = 0) {vd vs2 : RegNum}
    (hne : vd ≠ vs2) (ha : GroupAligned s vd) (hout : ¬InGroup s vd vs2) :
    exec (.viota vd vs2 true) s = .next (completed s (.viota vd vs2 true)) :=
  exec_eq_completed hs (reservedOverlap_eq_none hne (.inl rfl)) (reservedIota_eq_none ha hout)
    fun _ => hz

/-- Unmasked, at `vstart = 0`, body element `i` is the count below `i`. -/
theorem elt_completed_viota {s : State} (hs : s.Ready) (hz : s.vstart = 0) {vd : RegNum}
    (vs2 : RegNum) (ha : GroupAligned s vd) {i : Nat} (hi : i < s.vl) :
    (completed s (.viota vd vs2 true)).elt vd i = s.countBelow vs2 true i % 2 ^ s.vtype.sew :=
  elt_newGroup_active hs ha (completed_viota_v s vd vs2 true) (completed_params s _)
    (completed_vtype s _) (hi.trans_le (vl_le_groupElements hs)) (by omega) hi (.inl rfl)

/-- Unmasked, the count one element further adds the source bit. -/
theorem countBelow_succ_unmasked (s : State) (vs2 : RegNum) (n : Nat) :
    s.countBelow vs2 true (n + 1) = s.countBelow vs2 true n + (s.maskBit vs2 n).toNat :=
  countBelow_succ s vs2 true n

/-- Settles O24: an element and its bit make the count one element further, and the last of these is
the whole count. -/
theorem viotaStepsToVpopc : Obligations.ViotaStepsToVpopc := by
  intro vd rd vs2 s hs hz hne ha hout hrd
  have hstep (i : Nat) (hi : i < s.vl) :
      ((completed s (.viota vd vs2 true)).elt vd i + (s.maskBit vs2 i).toNat) % 2 ^ s.vtype.sew =
        s.countBelow vs2 true (i + 1) % 2 ^ s.vtype.sew := by
    rw [elt_completed_viota hs hz vs2 ha hi, Nat.mod_add_mod, countBelow_succ_unmasked]
  refine ⟨_, _, exec_viota_completes hs hz hne ha hout, exec_eq_completed hs rfl rfl fun _ => hz,
    fun i hi => ?_, fun i hi => ?_⟩
  · rw [hstep i (by omega), elt_completed_viota hs hz vs2 ha hi]
  · rw [hstep i (by omega), hi, readX_completed_vpopc_toNat hs.1 vs2 true hrd]

/-- `vstart` written with the value it holds. -/
theorem setVstart_of_vstart_eq {s : State} {n : Nat} (h : s.vstart = n) : s.setVstart n = s := by
  subst h
  rfl

/-- Settles O25: below `vl` the counts of an all-ones source are the indices. -/
theorem vidIsViotaOfAllOnes : Obligations.VidIsViotaOfAllOnes := by
  intro vd vs2 s hs hz hne ha hout hones
  have hcount : ∀ i < s.vl, i = s.countBelow vs2 true i := fun i hi => by
    rw [countBelow_unmasked (p := fun _ => true) fun j hj => hones j (hj.trans hi),
      List.countP_true, List.length_range]
  have hsame : completed s (.vid vd 0 true) = completed s (.viota vd vs2 true) := by
    rw [completed, completed, setVstart_of_vstart_eq ((s.setV_vstart _).trans hz),
      newGroup_congr hcount]
  refine ⟨_, exec_eq_completed hs ?_ (reservedId_eq_none ha) nofun, ?_⟩
  · exact (reservedVid_eq_none_iff vd 0 true).mpr (by simp)
  · rw [hsame]
    exact exec_viota_completes hs hz hne ha hout

/-! ### Derived quantities (R24) -/

/-- LMUL as a rational number is 2 to the signed exponent. -/
theorem lmul_eq_zpow (t : VType) : (t.lmulNum : ℚ) / t.lmulDen = (2 : ℚ) ^ t.vlmul.toInt := by
  unfold VType.lmulNum VType.lmulDen
  obtain ⟨n, hn | hn⟩ := t.vlmul.toInt.eq_nat_or_neg <;> rw [hn]
  · simp
  · simp

/-- The group size is LMUL or 1, whichever is greater (R62). -/
theorem groupSize_eq_max (t : VType) :
    (t.groupSize : ℚ) = max 1 ((t.lmulNum : ℚ) / t.lmulDen) := by
  unfold VType.groupSize VType.lmulNum VType.lmulDen
  obtain ⟨n, hn | hn⟩ := t.vlmul.toInt.eq_nat_or_neg <;> rw [hn]
  · have hone : (1 : ℚ) ≤ 2 ^ n := one_le_pow₀ one_le_two
    simp [hone]
  · have hone : ((2 : ℚ) ^ n)⁻¹ ≤ 1 := inv_le_one_of_one_le₀ (one_le_pow₀ one_le_two)
    simp [hone]

/-- VLMAX is an exact quotient: both its terms are powers of two (R24). -/
theorem lmulDen_mul_sew_dvd {p : Params} {t : VType} (hp : paramsOk p = true)
    (h : t.legal p = true) (hmax : 1 ≤ t.vlmax p.vlen) :
    t.lmulDen * t.sew ∣ t.lmulNum * p.vlen := by
  obtain ⟨k, hk, -⟩ := paramsOk_vlen hp
  obtain ⟨e, he, -⟩ := VType.legal_sew h
  have hle : t.lmulDen * t.sew ≤ t.lmulNum * p.vlen :=
    (Nat.div_pos_iff.mp hmax).2
  unfold VType.lmulNum VType.lmulDen at *
  rw [hk, he, ← pow_add, ← pow_add] at *
  exact pow_dvd_pow 2 ((Nat.pow_le_pow_iff_right Nat.one_lt_two).mp hle)

/-- VLMAX is at most VLEN: LMUL is at most 8, and SEW at least 8 (R24). -/
theorem vlmax_le_vlen (t : VType) (vlen : Nat) : t.vlmax vlen ≤ vlen := by
  have hnum : t.lmulNum ≤ 8 := by
    rcases t.groupSize_cases with h | h | h | h <;> exact h.le.trans (by decide)
  have hden : 8 ≤ t.lmulDen * t.sew :=
    calc 8 ≤ t.sew := Nat.le_mul_of_pos_right 8 (Nat.two_pow_pos _)
      _ ≤ t.lmulDen * t.sew := Nat.le_mul_of_pos_left _ (Nat.two_pow_pos _)
  exact Nat.div_le_of_le_mul (Nat.mul_le_mul_right vlen (hnum.trans hden))

/-- Settles O27: LMUL is a signed power of two, and VLMAX an exact quotient. -/
theorem derivedQuantitiesOfLegalVtype : Obligations.DerivedQuantitiesOfLegalVtype := by
  intro p t hp h
  have hmax : 1 ≤ t.vlmax p.vlen := by
    simp only [VType.legal, Bool.and_eq_true, decide_eq_true_eq] at h
    exact h.2
  refine ⟨lmul_eq_zpow t, ?_, hmax, vlmax_le_vlen t p.vlen, groupSize_eq_max t⟩
  have hden : ((t.lmulDen * t.sew : Nat) : ℚ) ≠ 0 :=
    Nat.cast_ne_zero.mpr (Nat.mul_pos (Nat.two_pow_pos _) (sew_pos t)).ne'
  rw [VType.vlmax, Nat.cast_div (lmulDen_mul_sew_dvd hp h hmax) hden, Nat.cast_mul, Nat.cast_mul,
    div_mul_eq_mul_div, div_div]

/-! ### The control and status registers by number (R20 to R25) -/

/-- With `vill = 1` only the highest bit of the `vtype` word is set (R23). -/
theorem getLsbD_vtypeWord_of_vill {t : VType} (h : t.vill = true) (xl : XLen) (k : Nat) :
    (vtypeWord xl t).getLsbD k = decide (k = xlenBits xl - 1) := by
  have hx : xlenBits xl - 1 < 64 := by cases xl <;> decide
  rw [vtypeWord, if_pos h, BitVec.getLsbD_shiftLeft, BitVec.getLsbD_one]
  by_cases hk : k = xlenBits xl - 1
  · simp [hk, hx]
  · simp [hk]
    omega

/-- With `vill = 0` the `vtype` word is its four fields, below bit 8 (R23). -/
theorem vtypeWord_of_vill_clear {t : VType} (h : t.vill = false) (xl : XLen) :
    vtypeWord xl t =
      (BitVec.ofBool t.vma ++ BitVec.ofBool t.vta ++ t.vsew ++ t.vlmul).setWidth 64 :=
  if_neg (by rw [h]; exact Bool.false_ne_true)

/-- The bits of `vtype` above the fields are 0, `vill` aside (R23). -/
theorem getLsbD_vtypeWord_high (t : VType) (xl : XLen) {k : Nat} (hk : 8 ≤ k)
    (hne : k ≠ xlenBits xl - 1) : (vtypeWord xl t).getLsbD k = false := by
  cases h : t.vill with
  | true => rw [getLsbD_vtypeWord_of_vill h, decide_eq_false hne]
  | false =>
    rw [vtypeWord_of_vill_clear h, BitVec.getLsbD_setWidth, BitVec.getLsbD_of_ge _ k hk,
      Bool.and_false]

/-- The highest bit of the `vtype` word is `vill` (R23). -/
theorem getLsbD_vtypeWord_vill (t : VType) (xl : XLen) :
    (vtypeWord xl t).getLsbD (xlenBits xl - 1) = t.vill := by
  cases h : t.vill with
  | true => rw [getLsbD_vtypeWord_of_vill h, decide_eq_true rfl]
  | false =>
    have hx : 8 ≤ xlenBits xl - 1 := by cases xl <;> decide
    rw [vtypeWord_of_vill_clear h, BitVec.getLsbD_setWidth, BitVec.getLsbD_of_ge _ _ hx,
      Bool.and_false]

/-- The fields of the `vtype` word (R23). -/
theorem fields_vtypeWord {t : VType} (h : t.vill = false) (xl : XLen) :
    (vtypeWord xl t).getLsbD 7 = t.vma ∧ (vtypeWord xl t).getLsbD 6 = t.vta ∧
      (vtypeWord xl t).extractLsb' 3 3 = t.vsew ∧ (vtypeWord xl t).extractLsb' 0 3 = t.vlmul := by
  rw [vtypeWord_of_vill_clear h]
  refine ⟨?_, ?_, ?_, ?_⟩
  · simp only [BitVec.getLsbD_setWidth, BitVec.getLsbD_append]
    exact BitVec.getLsbD_ofBool t.vma 0
  · simp only [BitVec.getLsbD_setWidth, BitVec.getLsbD_append]
    exact BitVec.getLsbD_ofBool t.vta 0
  · rw [BitVec.extractLsb'_setWidth_of_le (by decide),
      BitVec.extractLsb'_append_eq_of_le (by decide)]
    exact BitVec.extractLsb'_append_eq_right
  · rw [BitVec.extractLsb'_setWidth_of_le (by decide)]
    exact BitVec.extractLsb'_append_eq_right

/-- A write of `vstart` keeps the low log2(VLEN) bits (R20). -/
theorem ofNat_mod_vlen {p : Params} (h : paramsOk p = true) (w : XWord) :
    BitVec.ofNat 64 (w.toNat % p.vlen) = w &&& BitVec.ofNat 64 (p.vlen - 1) := by
  obtain ⟨k, hk, -, hle⟩ := paramsOk_vlen h
  have hlt : 2 ^ k < 2 ^ 64 := Nat.pow_lt_pow_right Nat.one_lt_two (by omega)
  apply BitVec.eq_of_toNat_eq
  rw [BitVec.toNat_and, BitVec.toNat_ofNat, BitVec.toNat_ofNat, hk,
    Nat.mod_eq_of_lt (a := 2 ^ k - 1) (by omega), Nat.and_two_pow_sub_one_eq_mod,
    Nat.mod_eq_of_lt ((Nat.mod_le _ _).trans_lt w.isLt)]

/-- Settles O28: the four reads by their layout, and a write of `vstart` taken modulo VLEN. -/
theorem csrViewsFollowTheirLayout : Obligations.CsrViewsFollowTheirLayout := by
  intro s w hs
  have hwf := s.illFormed_eq_none.mp hs
  obtain ⟨hp, hrange, ha, -, hvl⟩ := hwf
  refine ⟨rfl, rfl, rfl, ⟨vtypeWord s.params.xlen s.vtype, rfl, getLsbD_vtypeWord_vill _ _,
    fun h k hk => ?_, fun k => getLsbD_vtypeWord_high _ _, fun h => fields_vtypeWord h _⟩,
    rfl, rfl, rfl, s.setVstart (w.toNat % s.params.vlen), rfl, ?_, ofNat_mod_vlen hp w⟩
  · rw [getLsbD_vtypeWord_of_vill h, decide_eq_false hk]
  · exact (State.illFormed_eq_none _).mpr ⟨hp, hrange, ha, Nat.mod_lt _ (vlen_pos hp), hvl⟩

end Sys2Proof.Proofs
